-- ==== Sys2Proof/Word.lean ====
section
/-! DEFINITION. The word types of the ARM968E-S: 32-bit words, 16-bit halfwords, 8-bit bytes (R101), 4-bit and 3-bit
register fields (R171, R201). -/

namespace Sys2Proof

/-- A 32-bit word (R101). -/
abbrev Word := BitVec 32
/-- A 16-bit halfword (R101). -/
abbrev Half := BitVec 16
/-- An 8-bit byte (R101). -/
abbrev Byte := BitVec 8
/-- A 4-bit register field, r0 to r15 (R171). -/
abbrev Reg := BitVec 4
/-- A 3-bit register field of a Thumb instruction, r0 to r7 (R201). -/
abbrev LReg := BitVec 3

/-- The 4-bit register a 3-bit Thumb field names (R201). -/
def LReg.reg (r : LReg) : Reg := r.zeroExtend 4

end Sys2Proof
end

