-- ==== Sys2Proof/Syntax.lean ====
section
/-! DEFINITION. The instructions of the ARM968E-S (ARMv5TE): one constructor of `Instr` for each row of
spec/opcode_table.json, 129 ARM rows and 65 Thumb rows. Every field of a row is an operand of its constructor, the
Should Be Zero, Should Be One and ignored bits too (`z`, `o`, `ig`), so that an encoding loses no bit. -/

namespace Sys2Proof

/-- The condition field of an ARM instruction and of the Thumb conditional branch, by its mnemonic suffix (R172). The
value 1111 is not a condition (R173) and has no constructor. -/
inductive Cond where
  | eq | ne | cs | cc | mi | pl | vs | vc | hi | ls | ge | lt | gt | le | al
deriving DecidableEq, Repr

/-- The four shift types of the 2-bit `shift` field (R177). -/
inductive Shift where
  | lsl | lsr | asr | ror
deriving DecidableEq, Repr

/-- The instructions, in the order of spec/opcode_table.json. Names of operands: `c` condition, `sf` the S bit, `rn rd rs
rm rdHi rdLo` registers, `rot imm` an immediate operand, `sa sh` a shift, `p u w n r h x y h1 h2` single bits of those
names, `off` an offset, `list` a register list, `fm` the field mask, `cp op1 op2 crn crm crd` coprocessor fields, `z o
ig` bits that should be zero, should be one, or are ignored. -/
inductive Instr where
  /-- AND: ARM data-processing, immediate operand (R278). -/
  | andImm (c : Cond) (sf : Bool) (rn : Reg) (rd : Reg) (rot : BitVec 4) (imm : BitVec 8)
  /-- AND: ARM data-processing, register operand shifted by immediate (R278). -/
  | andShImm (c : Cond) (sf : Bool) (rn : Reg) (rd : Reg) (sa : BitVec 5) (sh : Shift) (rm : Reg)
  /-- AND: ARM data-processing, register operand shifted by register (R278). -/
  | andShReg (c : Cond) (sf : Bool) (rn : Reg) (rd : Reg) (rs : Reg) (sh : Shift) (rm : Reg)
  /-- EOR: ARM data-processing, immediate operand (R279). -/
  | eorImm (c : Cond) (sf : Bool) (rn : Reg) (rd : Reg) (rot : BitVec 4) (imm : BitVec 8)
  /-- EOR: ARM data-processing, register operand shifted by immediate (R279). -/
  | eorShImm (c : Cond) (sf : Bool) (rn : Reg) (rd : Reg) (sa : BitVec 5) (sh : Shift) (rm : Reg)
  /-- EOR: ARM data-processing, register operand shifted by register (R279). -/
  | eorShReg (c : Cond) (sf : Bool) (rn : Reg) (rd : Reg) (rs : Reg) (sh : Shift) (rm : Reg)
  /-- SUB: ARM data-processing, immediate operand (R280). -/
  | subImm (c : Cond) (sf : Bool) (rn : Reg) (rd : Reg) (rot : BitVec 4) (imm : BitVec 8)
  /-- SUB: ARM data-processing, register operand shifted by immediate (R280). -/
  | subShImm (c : Cond) (sf : Bool) (rn : Reg) (rd : Reg) (sa : BitVec 5) (sh : Shift) (rm : Reg)
  /-- SUB: ARM data-processing, register operand shifted by register (R280). -/
  | subShReg (c : Cond) (sf : Bool) (rn : Reg) (rd : Reg) (rs : Reg) (sh : Shift) (rm : Reg)
  /-- RSB: ARM data-processing, immediate operand (R281). -/
  | rsbImm (c : Cond) (sf : Bool) (rn : Reg) (rd : Reg) (rot : BitVec 4) (imm : BitVec 8)
  /-- RSB: ARM data-processing, register operand shifted by immediate (R281). -/
  | rsbShImm (c : Cond) (sf : Bool) (rn : Reg) (rd : Reg) (sa : BitVec 5) (sh : Shift) (rm : Reg)
  /-- RSB: ARM data-processing, register operand shifted by register (R281). -/
  | rsbShReg (c : Cond) (sf : Bool) (rn : Reg) (rd : Reg) (rs : Reg) (sh : Shift) (rm : Reg)
  /-- ADD: ARM data-processing, immediate operand (R282). -/
  | addImm (c : Cond) (sf : Bool) (rn : Reg) (rd : Reg) (rot : BitVec 4) (imm : BitVec 8)
  /-- ADD: ARM data-processing, register operand shifted by immediate (R282). -/
  | addShImm (c : Cond) (sf : Bool) (rn : Reg) (rd : Reg) (sa : BitVec 5) (sh : Shift) (rm : Reg)
  /-- ADD: ARM data-processing, register operand shifted by register (R282). -/
  | addShReg (c : Cond) (sf : Bool) (rn : Reg) (rd : Reg) (rs : Reg) (sh : Shift) (rm : Reg)
  /-- ADC: ARM data-processing, immediate operand (R283). -/
  | adcImm (c : Cond) (sf : Bool) (rn : Reg) (rd : Reg) (rot : BitVec 4) (imm : BitVec 8)
  /-- ADC: ARM data-processing, register operand shifted by immediate (R283). -/
  | adcShImm (c : Cond) (sf : Bool) (rn : Reg) (rd : Reg) (sa : BitVec 5) (sh : Shift) (rm : Reg)
  /-- ADC: ARM data-processing, register operand shifted by register (R283). -/
  | adcShReg (c : Cond) (sf : Bool) (rn : Reg) (rd : Reg) (rs : Reg) (sh : Shift) (rm : Reg)
  /-- SBC: ARM data-processing, immediate operand (R284). -/
  | sbcImm (c : Cond) (sf : Bool) (rn : Reg) (rd : Reg) (rot : BitVec 4) (imm : BitVec 8)
  /-- SBC: ARM data-processing, register operand shifted by immediate (R284). -/
  | sbcShImm (c : Cond) (sf : Bool) (rn : Reg) (rd : Reg) (sa : BitVec 5) (sh : Shift) (rm : Reg)
  /-- SBC: ARM data-processing, register operand shifted by register (R284). -/
  | sbcShReg (c : Cond) (sf : Bool) (rn : Reg) (rd : Reg) (rs : Reg) (sh : Shift) (rm : Reg)
  /-- RSC: ARM data-processing, immediate operand (R285). -/
  | rscImm (c : Cond) (sf : Bool) (rn : Reg) (rd : Reg) (rot : BitVec 4) (imm : BitVec 8)
  /-- RSC: ARM data-processing, register operand shifted by immediate (R285). -/
  | rscShImm (c : Cond) (sf : Bool) (rn : Reg) (rd : Reg) (sa : BitVec 5) (sh : Shift) (rm : Reg)
  /-- RSC: ARM data-processing, register operand shifted by register (R285). -/
  | rscShReg (c : Cond) (sf : Bool) (rn : Reg) (rd : Reg) (rs : Reg) (sh : Shift) (rm : Reg)
  /-- TST: ARM data-processing, immediate operand (R286). -/
  | tstImm (c : Cond) (rn : Reg) (z : BitVec 4) (rot : BitVec 4) (imm : BitVec 8)
  /-- TST: ARM data-processing, register operand shifted by immediate (R286). -/
  | tstShImm (c : Cond) (rn : Reg) (z : BitVec 4) (sa : BitVec 5) (sh : Shift) (rm : Reg)
  /-- TST: ARM data-processing, register operand shifted by register (R286). -/
  | tstShReg (c : Cond) (rn : Reg) (z : BitVec 4) (rs : Reg) (sh : Shift) (rm : Reg)
  /-- TEQ: ARM data-processing, immediate operand (R287). -/
  | teqImm (c : Cond) (rn : Reg) (z : BitVec 4) (rot : BitVec 4) (imm : BitVec 8)
  /-- TEQ: ARM data-processing, register operand shifted by immediate (R287). -/
  | teqShImm (c : Cond) (rn : Reg) (z : BitVec 4) (sa : BitVec 5) (sh : Shift) (rm : Reg)
  /-- TEQ: ARM data-processing, register operand shifted by register (R287). -/
  | teqShReg (c : Cond) (rn : Reg) (z : BitVec 4) (rs : Reg) (sh : Shift) (rm : Reg)
  /-- CMP: ARM data-processing, immediate operand (R288). -/
  | cmpImm (c : Cond) (rn : Reg) (z : BitVec 4) (rot : BitVec 4) (imm : BitVec 8)
  /-- CMP: ARM data-processing, register operand shifted by immediate (R288). -/
  | cmpShImm (c : Cond) (rn : Reg) (z : BitVec 4) (sa : BitVec 5) (sh : Shift) (rm : Reg)
  /-- CMP: ARM data-processing, register operand shifted by register (R288). -/
  | cmpShReg (c : Cond) (rn : Reg) (z : BitVec 4) (rs : Reg) (sh : Shift) (rm : Reg)
  /-- CMN: ARM data-processing, immediate operand (R289). -/
  | cmnImm (c : Cond) (rn : Reg) (z : BitVec 4) (rot : BitVec 4) (imm : BitVec 8)
  /-- CMN: ARM data-processing, register operand shifted by immediate (R289). -/
  | cmnShImm (c : Cond) (rn : Reg) (z : BitVec 4) (sa : BitVec 5) (sh : Shift) (rm : Reg)
  /-- CMN: ARM data-processing, register operand shifted by register (R289). -/
  | cmnShReg (c : Cond) (rn : Reg) (z : BitVec 4) (rs : Reg) (sh : Shift) (rm : Reg)
  /-- ORR: ARM data-processing, immediate operand (R290). -/
  | orrImm (c : Cond) (sf : Bool) (rn : Reg) (rd : Reg) (rot : BitVec 4) (imm : BitVec 8)
  /-- ORR: ARM data-processing, register operand shifted by immediate (R290). -/
  | orrShImm (c : Cond) (sf : Bool) (rn : Reg) (rd : Reg) (sa : BitVec 5) (sh : Shift) (rm : Reg)
  /-- ORR: ARM data-processing, register operand shifted by register (R290). -/
  | orrShReg (c : Cond) (sf : Bool) (rn : Reg) (rd : Reg) (rs : Reg) (sh : Shift) (rm : Reg)
  /-- MOV: ARM data-processing, immediate operand (R291). -/
  | movImm (c : Cond) (sf : Bool) (z : BitVec 4) (rd : Reg) (rot : BitVec 4) (imm : BitVec 8)
  /-- MOV: ARM data-processing, register operand shifted by immediate (R291). -/
  | movShImm (c : Cond) (sf : Bool) (z : BitVec 4) (rd : Reg) (sa : BitVec 5) (sh : Shift) (rm : Reg)
  /-- MOV: ARM data-processing, register operand shifted by register (R291). -/
  | movShReg (c : Cond) (sf : Bool) (z : BitVec 4) (rd : Reg) (rs : Reg) (sh : Shift) (rm : Reg)
  /-- BIC: ARM data-processing, immediate operand (R292). -/
  | bicImm (c : Cond) (sf : Bool) (rn : Reg) (rd : Reg) (rot : BitVec 4) (imm : BitVec 8)
  /-- BIC: ARM data-processing, register operand shifted by immediate (R292). -/
  | bicShImm (c : Cond) (sf : Bool) (rn : Reg) (rd : Reg) (sa : BitVec 5) (sh : Shift) (rm : Reg)
  /-- BIC: ARM data-processing, register operand shifted by register (R292). -/
  | bicShReg (c : Cond) (sf : Bool) (rn : Reg) (rd : Reg) (rs : Reg) (sh : Shift) (rm : Reg)
  /-- MVN: ARM data-processing, immediate operand (R293). -/
  | mvnImm (c : Cond) (sf : Bool) (z : BitVec 4) (rd : Reg) (rot : BitVec 4) (imm : BitVec 8)
  /-- MVN: ARM data-processing, register operand shifted by immediate (R293). -/
  | mvnShImm (c : Cond) (sf : Bool) (z : BitVec 4) (rd : Reg) (sa : BitVec 5) (sh : Shift) (rm : Reg)
  /-- MVN: ARM data-processing, register operand shifted by register (R293). -/
  | mvnShReg (c : Cond) (sf : Bool) (z : BitVec 4) (rd : Reg) (rs : Reg) (sh : Shift) (rm : Reg)
  /-- CLZ: ARM miscellaneous (R294). -/
  | clz (c : Cond) (o1 : BitVec 4) (rd : Reg) (o2 : BitVec 4) (rm : Reg)
  /-- MUL: ARM multiply (R301). -/
  | mul (c : Cond) (sf : Bool) (rd : Reg) (z : BitVec 4) (rs : Reg) (rm : Reg)
  /-- MLA: ARM multiply (R302). -/
  | mla (c : Cond) (sf : Bool) (rd : Reg) (rn : Reg) (rs : Reg) (rm : Reg)
  /-- UMULL: ARM multiply long (R303). -/
  | umull (c : Cond) (sf : Bool) (rdHi : Reg) (rdLo : Reg) (rs : Reg) (rm : Reg)
  /-- UMLAL: ARM multiply long (R304). -/
  | umlal (c : Cond) (sf : Bool) (rdHi : Reg) (rdLo : Reg) (rs : Reg) (rm : Reg)
  /-- SMULL: ARM multiply long (R305). -/
  | smull (c : Cond) (sf : Bool) (rdHi : Reg) (rdLo : Reg) (rs : Reg) (rm : Reg)
  /-- SMLAL: ARM multiply long (R306). -/
  | smlal (c : Cond) (sf : Bool) (rdHi : Reg) (rdLo : Reg) (rs : Reg) (rm : Reg)
  /-- SMLA<x><y>: ARM DSP multiply (R309). -/
  | smlaXY (c : Cond) (rd : Reg) (rn : Reg) (rs : Reg) (y : Bool) (x : Bool) (rm : Reg)
  /-- SMLAW<y>: ARM DSP multiply (R311). -/
  | smlawY (c : Cond) (rd : Reg) (rn : Reg) (rs : Reg) (y : Bool) (rm : Reg)
  /-- SMULW<y>: ARM DSP multiply (R310). -/
  | smulwY (c : Cond) (rd : Reg) (z : BitVec 4) (rs : Reg) (y : Bool) (rm : Reg)
  /-- SMLAL<x><y>: ARM DSP multiply (R312). -/
  | smlalXY (c : Cond) (rdHi : Reg) (rdLo : Reg) (rs : Reg) (y : Bool) (x : Bool) (rm : Reg)
  /-- SMUL<x><y>: ARM DSP multiply (R308). -/
  | smulXY (c : Cond) (rd : Reg) (z : BitVec 4) (rs : Reg) (y : Bool) (x : Bool) (rm : Reg)
  /-- QADD: ARM DSP saturating arithmetic (R313). -/
  | qadd (c : Cond) (rn : Reg) (rd : Reg) (z : BitVec 4) (rm : Reg)
  /-- QSUB: ARM DSP saturating arithmetic (R314). -/
  | qsub (c : Cond) (rn : Reg) (rd : Reg) (z : BitVec 4) (rm : Reg)
  /-- QDADD: ARM DSP saturating arithmetic (R315). -/
  | qdadd (c : Cond) (rn : Reg) (rd : Reg) (z : BitVec 4) (rm : Reg)
  /-- QDSUB: ARM DSP saturating arithmetic (R316). -/
  | qdsub (c : Cond) (rn : Reg) (rd : Reg) (z : BitVec 4) (rm : Reg)
  /-- B: ARM branch (R332). -/
  | b (c : Cond) (off : BitVec 24)
  /-- BL: ARM branch (R332). -/
  | bl (c : Cond) (off : BitVec 24)
  /-- BLX(1): ARM branch, unconditional (cond = 1111) (R334). -/
  | blxImm (h : Bool) (off : BitVec 24)
  /-- BX: ARM miscellaneous (R335). -/
  | bx (c : Cond) (o : BitVec 12) (rm : Reg)
  /-- BLX(2): ARM miscellaneous (R336). -/
  | blxReg (c : Cond) (o : BitVec 12) (rm : Reg)
  /-- MRS: ARM miscellaneous (R338). -/
  | mrs (c : Cond) (r : Bool) (o : BitVec 4) (rd : Reg) (z1 : BitVec 4) (z2 : BitVec 4)
  /-- MSR: ARM miscellaneous, register operand (R341). -/
  | msrReg (c : Cond) (r : Bool) (fm : BitVec 4) (o : BitVec 4) (z : BitVec 4) (rm : Reg)
  /-- MSR: ARM move immediate to status register (R341). -/
  | msrImm (c : Cond) (r : Bool) (fm : BitVec 4) (o : BitVec 4) (rot : BitVec 4) (imm : BitVec 8)
  /-- SWI: ARM software interrupt (R344). -/
  | swi (c : Cond) (imm : BitVec 24)
  /-- BKPT: ARM miscellaneous (cond fixed at 1110) (R345). -/
  | bkpt (immHi : BitVec 12) (immLo : BitVec 4)
  /-- LDR: ARM load/store word or unsigned byte, immediate offset (R352). -/
  | ldrImm (c : Cond) (p : Bool) (u : Bool) (w : Bool) (rn : Reg) (rd : Reg) (off : BitVec 12)
  /-- LDR: ARM load/store word or unsigned byte, (scaled) register offset (R352). -/
  | ldrReg (c : Cond) (p : Bool) (u : Bool) (w : Bool) (rn : Reg) (rd : Reg) (sa : BitVec 5) (sh : Shift) (rm : Reg)
  /-- STR: ARM load/store word or unsigned byte, immediate offset (R355). -/
  | strImm (c : Cond) (p : Bool) (u : Bool) (w : Bool) (rn : Reg) (rd : Reg) (off : BitVec 12)
  /-- STR: ARM load/store word or unsigned byte, (scaled) register offset (R355). -/
  | strReg (c : Cond) (p : Bool) (u : Bool) (w : Bool) (rn : Reg) (rd : Reg) (sa : BitVec 5) (sh : Shift) (rm : Reg)
  /-- LDRB: ARM load/store word or unsigned byte, immediate offset (R357). -/
  | ldrbImm (c : Cond) (p : Bool) (u : Bool) (w : Bool) (rn : Reg) (rd : Reg) (off : BitVec 12)
  /-- LDRB: ARM load/store word or unsigned byte, (scaled) register offset (R357). -/
  | ldrbReg (c : Cond) (p : Bool) (u : Bool) (w : Bool) (rn : Reg) (rd : Reg) (sa : BitVec 5) (sh : Shift) (rm : Reg)
  /-- STRB: ARM load/store word or unsigned byte, immediate offset (R358). -/
  | strbImm (c : Cond) (p : Bool) (u : Bool) (w : Bool) (rn : Reg) (rd : Reg) (off : BitVec 12)
  /-- STRB: ARM load/store word or unsigned byte, (scaled) register offset (R358). -/
  | strbReg (c : Cond) (p : Bool) (u : Bool) (w : Bool) (rn : Reg) (rd : Reg) (sa : BitVec 5) (sh : Shift) (rm : Reg)
  /-- LDRT: ARM load/store word or unsigned byte, immediate offset (R360). -/
  | ldrtImm (c : Cond) (u : Bool) (rn : Reg) (rd : Reg) (off : BitVec 12)
  /-- LDRT: ARM load/store word or unsigned byte, (scaled) register offset (R360). -/
  | ldrtReg (c : Cond) (u : Bool) (rn : Reg) (rd : Reg) (sa : BitVec 5) (sh : Shift) (rm : Reg)
  /-- STRT: ARM load/store word or unsigned byte, immediate offset (R361). -/
  | strtImm (c : Cond) (u : Bool) (rn : Reg) (rd : Reg) (off : BitVec 12)
  /-- STRT: ARM load/store word or unsigned byte, (scaled) register offset (R361). -/
  | strtReg (c : Cond) (u : Bool) (rn : Reg) (rd : Reg) (sa : BitVec 5) (sh : Shift) (rm : Reg)
  /-- LDRBT: ARM load/store word or unsigned byte, immediate offset (R363). -/
  | ldrbtImm (c : Cond) (u : Bool) (rn : Reg) (rd : Reg) (off : BitVec 12)
  /-- LDRBT: ARM load/store word or unsigned byte, (scaled) register offset (R363). -/
  | ldrbtReg (c : Cond) (u : Bool) (rn : Reg) (rd : Reg) (sa : BitVec 5) (sh : Shift) (rm : Reg)
  /-- STRBT: ARM load/store word or unsigned byte, immediate offset (R364). -/
  | strbtImm (c : Cond) (u : Bool) (rn : Reg) (rd : Reg) (off : BitVec 12)
  /-- STRBT: ARM load/store word or unsigned byte, (scaled) register offset (R364). -/
  | strbtReg (c : Cond) (u : Bool) (rn : Reg) (rd : Reg) (sa : BitVec 5) (sh : Shift) (rm : Reg)
  /-- LDRH: ARM load/store halfword, signed byte or doubleword, immediate offset (R366). -/
  | ldrhImm (c : Cond) (p : Bool) (u : Bool) (w : Bool) (rn : Reg) (rd : Reg) (immH : BitVec 4) (immL : BitVec 4)
  /-- LDRH: ARM load/store halfword, signed byte or doubleword, register offset (R366). -/
  | ldrhReg (c : Cond) (p : Bool) (u : Bool) (w : Bool) (rn : Reg) (rd : Reg) (z : BitVec 4) (rm : Reg)
  /-- STRH: ARM load/store halfword, signed byte or doubleword, immediate offset (R367). -/
  | strhImm (c : Cond) (p : Bool) (u : Bool) (w : Bool) (rn : Reg) (rd : Reg) (immH : BitVec 4) (immL : BitVec 4)
  /-- STRH: ARM load/store halfword, signed byte or doubleword, register offset (R367). -/
  | strhReg (c : Cond) (p : Bool) (u : Bool) (w : Bool) (rn : Reg) (rd : Reg) (z : BitVec 4) (rm : Reg)
  /-- LDRSB: ARM load/store halfword, signed byte or doubleword, immediate offset (R368). -/
  | ldrsbImm (c : Cond) (p : Bool) (u : Bool) (w : Bool) (rn : Reg) (rd : Reg) (immH : BitVec 4) (immL : BitVec 4)
  /-- LDRSB: ARM load/store halfword, signed byte or doubleword, register offset (R368). -/
  | ldrsbReg (c : Cond) (p : Bool) (u : Bool) (w : Bool) (rn : Reg) (rd : Reg) (z : BitVec 4) (rm : Reg)
  /-- LDRSH: ARM load/store halfword, signed byte or doubleword, immediate offset (R369). -/
  | ldrshImm (c : Cond) (p : Bool) (u : Bool) (w : Bool) (rn : Reg) (rd : Reg) (immH : BitVec 4) (immL : BitVec 4)
  /-- LDRSH: ARM load/store halfword, signed byte or doubleword, register offset (R369). -/
  | ldrshReg (c : Cond) (p : Bool) (u : Bool) (w : Bool) (rn : Reg) (rd : Reg) (z : BitVec 4) (rm : Reg)
  /-- LDRD: ARM load/store halfword, signed byte or doubleword, immediate offset (R370). -/
  | ldrdImm (c : Cond) (p : Bool) (u : Bool) (w : Bool) (rn : Reg) (rd : Reg) (immH : BitVec 4) (immL : BitVec 4)
  /-- LDRD: ARM load/store halfword, signed byte or doubleword, register offset (R370). -/
  | ldrdReg (c : Cond) (p : Bool) (u : Bool) (w : Bool) (rn : Reg) (rd : Reg) (z : BitVec 4) (rm : Reg)
  /-- STRD: ARM load/store halfword, signed byte or doubleword, immediate offset (R371). -/
  | strdImm (c : Cond) (p : Bool) (u : Bool) (w : Bool) (rn : Reg) (rd : Reg) (immH : BitVec 4) (immL : BitVec 4)
  /-- STRD: ARM load/store halfword, signed byte or doubleword, register offset (R371). -/
  | strdReg (c : Cond) (p : Bool) (u : Bool) (w : Bool) (rn : Reg) (rd : Reg) (z : BitVec 4) (rm : Reg)
  /-- PLD: ARM preload, unconditional (cond = 1111), immediate offset (R378). -/
  | pldImm (u : Bool) (rn : Reg) (off : BitVec 12)
  /-- PLD: ARM preload, unconditional (cond = 1111), (scaled) register offset (R378). -/
  | pldReg (u : Bool) (rn : Reg) (sa : BitVec 5) (sh : Shift) (rm : Reg)
  /-- LDM(1): ARM load/store multiple (R388). -/
  | ldm1 (c : Cond) (p : Bool) (u : Bool) (w : Bool) (rn : Reg) (list : BitVec 16)
  /-- LDM(2): ARM load/store multiple, User registers (R389). -/
  | ldm2 (c : Cond) (p : Bool) (u : Bool) (z : BitVec 1) (rn : Reg) (list : BitVec 15)
  /-- LDM(3): ARM load/store multiple, with CPSR restore (R390). -/
  | ldm3 (c : Cond) (p : Bool) (u : Bool) (w : Bool) (rn : Reg) (list : BitVec 15)
  /-- STM(1): ARM load/store multiple (R391). -/
  | stm1 (c : Cond) (p : Bool) (u : Bool) (w : Bool) (rn : Reg) (list : BitVec 16)
  /-- STM(2): ARM load/store multiple, User registers (R392). -/
  | stm2 (c : Cond) (p : Bool) (u : Bool) (z : BitVec 1) (rn : Reg) (list : BitVec 16)
  /-- SWP: ARM semaphore (R396). -/
  | swp (c : Cond) (rn : Reg) (rd : Reg) (z : BitVec 4) (rm : Reg)
  /-- SWPB: ARM semaphore (R397). -/
  | swpb (c : Cond) (rn : Reg) (rd : Reg) (z : BitVec 4) (rm : Reg)
  /-- CDP: ARM coprocessor data processing (R402). -/
  | cdp (c : Cond) (op1 : BitVec 4) (crn : BitVec 4) (crd : BitVec 4) (cp : BitVec 4) (op2 : BitVec 3) (crm : BitVec 4)
  /-- LDC: ARM coprocessor load/store (R404). -/
  | ldc (c : Cond) (p : Bool) (u : Bool) (n : Bool) (w : Bool) (rn : Reg) (crd : BitVec 4) (cp : BitVec 4) (off : BitVec 8)
  /-- STC: ARM coprocessor load/store (R404). -/
  | stc (c : Cond) (p : Bool) (u : Bool) (n : Bool) (w : Bool) (rn : Reg) (crd : BitVec 4) (cp : BitVec 4) (off : BitVec 8)
  /-- MCR: ARM coprocessor register transfer, coprocessors 0 to 13 (R406). -/
  | mcr (c : Cond) (op1 : BitVec 3) (crn : BitVec 4) (rd : Reg) (cp : BitVec 4) (op2 : BitVec 3) (crm : BitVec 4)
  /-- MRC: ARM coprocessor register transfer, coprocessors 0 to 13 (R406). -/
  | mrc (c : Cond) (op1 : BitVec 3) (crn : BitVec 4) (rd : Reg) (cp : BitVec 4) (op2 : BitVec 3) (crm : BitVec 4)
  /-- MCRR: ARM coprocessor two-register transfer (R408). -/
  | mcrr (c : Cond) (rn : Reg) (rd : Reg) (cp : BitVec 4) (op1 : BitVec 4) (crm : BitVec 4)
  /-- MRRC: ARM coprocessor two-register transfer (R408). -/
  | mrrc (c : Cond) (rn : Reg) (rd : Reg) (cp : BitVec 4) (op1 : BitVec 4) (crm : BitVec 4)
  /-- CDP2: ARM coprocessor data processing, unconditional (cond = 1111) (R410). -/
  | cdp2 (op1 : BitVec 4) (crn : BitVec 4) (crd : BitVec 4) (cp : BitVec 4) (op2 : BitVec 3) (crm : BitVec 4)
  /-- LDC2: ARM coprocessor load/store, unconditional (cond = 1111) (R410). -/
  | ldc2 (p : Bool) (u : Bool) (n : Bool) (w : Bool) (rn : Reg) (crd : BitVec 4) (cp : BitVec 4) (off : BitVec 8)
  /-- STC2: ARM coprocessor load/store, unconditional (cond = 1111) (R410). -/
  | stc2 (p : Bool) (u : Bool) (n : Bool) (w : Bool) (rn : Reg) (crd : BitVec 4) (cp : BitVec 4) (off : BitVec 8)
  /-- MCR2: ARM coprocessor register transfer, unconditional (cond = 1111) (R410). -/
  | mcr2 (op1 : BitVec 3) (crn : BitVec 4) (rd : Reg) (cp : BitVec 4) (op2 : BitVec 3) (crm : BitVec 4)
  /-- MRC2: ARM coprocessor register transfer, unconditional (cond = 1111) (R410). -/
  | mrc2 (op1 : BitVec 3) (crn : BitVec 4) (rd : Reg) (cp : BitVec 4) (op2 : BitVec 3) (crm : BitVec 4)
  /-- MCR p15: ARM coprocessor register transfer to CP15 (R230). -/
  | mcr15 (c : Cond) (op1 : BitVec 3) (crn : BitVec 4) (rd : Reg) (op2 : BitVec 3) (crm : BitVec 4)
  /-- MRC p15: ARM coprocessor register transfer from CP15 (R230). -/
  | mrc15 (c : Cond) (op1 : BitVec 3) (crn : BitVec 4) (rd : Reg) (op2 : BitVec 3) (crm : BitVec 4)
  /-- MCR p14: ARM coprocessor register transfer to CP14 (debug communications channel) (R260). -/
  | mcr14 (c : Cond) (op1 : BitVec 3) (crn : BitVec 4) (rd : Reg) (op2 : BitVec 3) (crm : BitVec 4)
  /-- MRC p14: ARM coprocessor register transfer from CP14 (debug communications channel) (R260). -/
  | mrc14 (c : Cond) (op1 : BitVec 3) (crn : BitVec 4) (rd : Reg) (op2 : BitVec 3) (crm : BitVec 4)
  /-- UNDEFINED: ARM architecturally undefined space, bits [27:25] = 011 with bit [4] = 1 (R195). -/
  | undefMedia (c : Cond) (ig1 : BitVec 20) (ig2 : BitVec 4)
  /-- UNDEFINED: ARM architecturally undefined space, bits [27:23] = 00110 with bits [21:20] = 00 (R195). -/
  | undefMisc (c : Cond) (ig1 : BitVec 1) (ig2 : BitVec 20)
  /-- LSL(1): Thumb shift by immediate (R422). -/
  | tLslImm (imm : BitVec 5) (rm : LReg) (rd : LReg)
  /-- LSR(1): Thumb shift by immediate (R423). -/
  | tLsrImm (imm : BitVec 5) (rm : LReg) (rd : LReg)
  /-- ASR(1): Thumb shift by immediate (R424). -/
  | tAsrImm (imm : BitVec 5) (rm : LReg) (rd : LReg)
  /-- ADD(3): Thumb add/subtract register (R427). -/
  | tAddReg (rm : LReg) (rn : LReg) (rd : LReg)
  /-- SUB(3): Thumb add/subtract register (R434). -/
  | tSubReg (rm : LReg) (rn : LReg) (rd : LReg)
  /-- ADD(1): Thumb add/subtract 3-bit immediate (imm3 = 0 is MOV(2), rule R437) (R425). -/
  | tAddImm3 (imm : BitVec 3) (rn : LReg) (rd : LReg)
  /-- SUB(1): Thumb add/subtract 3-bit immediate (R432). -/
  | tSubImm3 (imm : BitVec 3) (rn : LReg) (rd : LReg)
  /-- MOV(1): Thumb move/compare/add/subtract 8-bit immediate (R436). -/
  | tMovImm (rd : LReg) (imm : BitVec 8)
  /-- CMP(1): Thumb move/compare/add/subtract 8-bit immediate (R439). -/
  | tCmpImm (rn : LReg) (imm : BitVec 8)
  /-- ADD(2): Thumb move/compare/add/subtract 8-bit immediate (R426). -/
  | tAddImm8 (rd : LReg) (imm : BitVec 8)
  /-- SUB(2): Thumb move/compare/add/subtract 8-bit immediate (R433). -/
  | tSubImm8 (rd : LReg) (imm : BitVec 8)
  /-- AND: Thumb data-processing register (R442). -/
  | tAnd (rm : LReg) (rd : LReg)
  /-- EOR: Thumb data-processing register (R443). -/
  | tEor (rm : LReg) (rd : LReg)
  /-- LSL(2): Thumb data-processing register (R444). -/
  | tLslReg (rs : LReg) (rd : LReg)
  /-- LSR(2): Thumb data-processing register (R445). -/
  | tLsrReg (rs : LReg) (rd : LReg)
  /-- ASR(2): Thumb data-processing register (R446). -/
  | tAsrReg (rs : LReg) (rd : LReg)
  /-- ADC: Thumb data-processing register (R447). -/
  | tAdc (rm : LReg) (rd : LReg)
  /-- SBC: Thumb data-processing register (R448). -/
  | tSbc (rm : LReg) (rd : LReg)
  /-- ROR: Thumb data-processing register (R449). -/
  | tRor (rs : LReg) (rd : LReg)
  /-- TST: Thumb data-processing register (R450). -/
  | tTst (rm : LReg) (rn : LReg)
  /-- NEG: Thumb data-processing register (R451). -/
  | tNeg (rm : LReg) (rd : LReg)
  /-- CMP(2): Thumb data-processing register (R440). -/
  | tCmpReg (rm : LReg) (rn : LReg)
  /-- CMN: Thumb data-processing register (R452). -/
  | tCmn (rm : LReg) (rn : LReg)
  /-- ORR: Thumb data-processing register (R453). -/
  | tOrr (rm : LReg) (rd : LReg)
  /-- MUL: Thumb data-processing register (R454). -/
  | tMul (rm : LReg) (rd : LReg)
  /-- BIC: Thumb data-processing register (R455). -/
  | tBic (rm : LReg) (rd : LReg)
  /-- MVN: Thumb data-processing register (R456). -/
  | tMvn (rm : LReg) (rd : LReg)
  /-- ADD(4): Thumb special data processing (high registers) (R428). -/
  | tAddHi (h1 : Bool) (h2 : Bool) (rm : LReg) (rd : LReg)
  /-- CMP(3): Thumb special data processing (high registers) (R441). -/
  | tCmpHi (h1 : Bool) (h2 : Bool) (rm : LReg) (rn : LReg)
  /-- MOV(3): Thumb special data processing (high registers) (R438). -/
  | tMovHi (h1 : Bool) (h2 : Bool) (rm : LReg) (rd : LReg)
  /-- ADD(5): Thumb add to PC (R429). -/
  | tAddPc (rd : LReg) (imm : BitVec 8)
  /-- ADD(6): Thumb add to SP (R430). -/
  | tAddSp (rd : LReg) (imm : BitVec 8)
  /-- ADD(7): Thumb adjust stack pointer (R431). -/
  | tIncSp (imm : BitVec 7)
  /-- SUB(4): Thumb adjust stack pointer (R435). -/
  | tDecSp (imm : BitVec 7)
  /-- BX: Thumb branch/exchange (R525). -/
  | tBx (h2 : Bool) (rm : LReg) (z : BitVec 3)
  /-- BLX(2): Thumb branch/exchange (R526). -/
  | tBlxReg (h2 : Bool) (rm : LReg) (z : BitVec 3)
  /-- LDR(3): Thumb load from literal pool (PC-relative) (R483). -/
  | tLdrPc (rd : LReg) (imm : BitVec 8)
  /-- STR(2): Thumb load/store register offset (R486). -/
  | tStrReg (rm : LReg) (rn : LReg) (rd : LReg)
  /-- STRH(2): Thumb load/store register offset (R495). -/
  | tStrhReg (rm : LReg) (rn : LReg) (rd : LReg)
  /-- STRB(2): Thumb load/store register offset (R491). -/
  | tStrbReg (rm : LReg) (rn : LReg) (rd : LReg)
  /-- LDRSB: Thumb load/store register offset (R496). -/
  | tLdrsb (rm : LReg) (rn : LReg) (rd : LReg)
  /-- LDR(2): Thumb load/store register offset (R482). -/
  | tLdrReg (rm : LReg) (rn : LReg) (rd : LReg)
  /-- LDRH(2): Thumb load/store register offset (R493). -/
  | tLdrhReg (rm : LReg) (rn : LReg) (rd : LReg)
  /-- LDRB(2): Thumb load/store register offset (R489). -/
  | tLdrbReg (rm : LReg) (rn : LReg) (rd : LReg)
  /-- LDRSH: Thumb load/store register offset (R497). -/
  | tLdrsh (rm : LReg) (rn : LReg) (rd : LReg)
  /-- STR(1): Thumb load/store word immediate offset (R485). -/
  | tStrImm (imm : BitVec 5) (rn : LReg) (rd : LReg)
  /-- LDR(1): Thumb load/store word immediate offset (R481). -/
  | tLdrImm (imm : BitVec 5) (rn : LReg) (rd : LReg)
  /-- STRB(1): Thumb load/store byte immediate offset (R490). -/
  | tStrbImm (imm : BitVec 5) (rn : LReg) (rd : LReg)
  /-- LDRB(1): Thumb load/store byte immediate offset (R488). -/
  | tLdrbImm (imm : BitVec 5) (rn : LReg) (rd : LReg)
  /-- STRH(1): Thumb load/store halfword immediate offset (R494). -/
  | tStrhImm (imm : BitVec 5) (rn : LReg) (rd : LReg)
  /-- LDRH(1): Thumb load/store halfword immediate offset (R492). -/
  | tLdrhImm (imm : BitVec 5) (rn : LReg) (rd : LReg)
  /-- STR(3): Thumb load/store SP-relative (R487). -/
  | tStrSp (rd : LReg) (imm : BitVec 8)
  /-- LDR(4): Thumb load/store SP-relative (R484). -/
  | tLdrSp (rd : LReg) (imm : BitVec 8)
  /-- PUSH: Thumb push/pop register list (R500). -/
  | tPush (r : Bool) (list : BitVec 8)
  /-- POP: Thumb push/pop register list (R501). -/
  | tPop (r : Bool) (list : BitVec 8)
  /-- BKPT: Thumb software breakpoint (R529). -/
  | tBkpt (imm : BitVec 8)
  /-- STMIA: Thumb load/store multiple (R503). -/
  | tStmia (rn : LReg) (list : BitVec 8)
  /-- LDMIA: Thumb load/store multiple (R502). -/
  | tLdmia (rn : LReg) (list : BitVec 8)
  /-- B(1): Thumb conditional branch (cond = 1110 and 1111 are the next two rows) (R510). -/
  | tBCond (c : Cond) (off : BitVec 8)
  /-- UNDEFINED: Thumb undefined instruction (conditional branch with cond = 1110) (R530). -/
  | tUndef (ig : BitVec 8)
  /-- SWI: Thumb software interrupt (R528). -/
  | tSwi (imm : BitVec 8)
  /-- B(2): Thumb unconditional branch (R511). -/
  | tB (off : BitVec 11)
  /-- BLX(1) suffix: Thumb second halfword of the BLX(1) pair (bit 0 fixed at 0) (R523). -/
  | tBlxSuffix (off : BitVec 10)
  /-- BL/BLX(1) prefix: Thumb first halfword of the BL or BLX(1) pair (R521). -/
  | tBlPrefix (off : BitVec 11)
  /-- BL suffix: Thumb second halfword of the BL pair (R522). -/
  | tBlSuffix (off : BitVec 11)
deriving DecidableEq, Repr

end Sys2Proof
end

