-- ==== Sys2Proof/Decode.lean ====
section
/-! DEFINITION. The decoder and the encoder (spec/30_encoding.md): the decode trees of R174, R187, R188, R173 (ARM) and
R200, R202 (Thumb), total over every word and halfword, and the words of an instruction by the `match` and `mask` of its
row of spec/opcode_table.json (R228). A Should Be Zero or Should Be One field is an operand (R180): a word that breaks one
decodes to its row and is refused when it executes (log 21). -/

namespace Sys2Proof

/-- The bits of a condition field (R172). -/
def Cond.bits : Cond → BitVec 4
  | .eq => 0x0#4 | .ne => 0x1#4 | .cs => 0x2#4 | .cc => 0x3#4 | .mi => 0x4#4 | .pl => 0x5#4 | .vs => 0x6#4 | .vc => 0x7#4
  | .hi => 0x8#4 | .ls => 0x9#4 | .ge => 0xA#4 | .lt => 0xB#4 | .gt => 0xC#4 | .le => 0xD#4 | .al => 0xE#4

/-- The condition a 4-bit field names; 1111 names none (R173). -/
def Cond.ofBits (b : BitVec 4) : Option Cond :=
  if b = 0x0#4 then some .eq else if b = 0x1#4 then some .ne else if b = 0x2#4 then some .cs
  else if b = 0x3#4 then some .cc else if b = 0x4#4 then some .mi else if b = 0x5#4 then some .pl
  else if b = 0x6#4 then some .vs else if b = 0x7#4 then some .vc else if b = 0x8#4 then some .hi
  else if b = 0x9#4 then some .ls else if b = 0xA#4 then some .ge else if b = 0xB#4 then some .lt
  else if b = 0xC#4 then some .gt else if b = 0xD#4 then some .le else if b = 0xE#4 then some .al else none

/-- The bits of a shift type (R177). -/
def Shift.bits : Shift → BitVec 2
  | .lsl => 0#2 | .lsr => 1#2 | .asr => 2#2 | .ror => 3#2

/-- The shift type a 2-bit field names (R177). -/
def Shift.ofBits (b : BitVec 2) : Shift :=
  if b = 0#2 then .lsl else if b = 1#2 then .lsr else if b = 2#2 then .asr else .ror

/-- The bits of one instruction: an ARM word or a Thumb halfword (R170). -/
inductive Code where
  | arm (w : Word)
  | thumb (h : Half)
deriving DecidableEq, Repr

/-- Why the decoder gives no instruction. -/
inductive DecodeError where
  /-- An ARM word that no row of the opcode table holds (R196). -/
  | unallocatedArm (w : Word)
  /-- A Thumb halfword that no row of the opcode table holds (R207). -/
  | unallocatedThumb (h : Half)
  /-- The byte list is not 4 (ARM) or 2 (Thumb) bytes long. -/
  | badLength
deriving DecidableEq, Repr

/-! ### ARM -/

/-- Data processing, the immediate form (R176): the opcode is bits [24:21] (R175). -/
def decodeDpImm (c : Cond) (w : Word) : Instr :=
  if w.extractLsb' 21 4 = 0x0#4 then .andImm c (w.getLsbD 20) (w.extractLsb' 16 4) (w.extractLsb' 12 4) (w.extractLsb' 8 4) (w.extractLsb' 0 8)
  else if w.extractLsb' 21 4 = 0x1#4 then .eorImm c (w.getLsbD 20) (w.extractLsb' 16 4) (w.extractLsb' 12 4) (w.extractLsb' 8 4) (w.extractLsb' 0 8)
  else if w.extractLsb' 21 4 = 0x2#4 then .subImm c (w.getLsbD 20) (w.extractLsb' 16 4) (w.extractLsb' 12 4) (w.extractLsb' 8 4) (w.extractLsb' 0 8)
  else if w.extractLsb' 21 4 = 0x3#4 then .rsbImm c (w.getLsbD 20) (w.extractLsb' 16 4) (w.extractLsb' 12 4) (w.extractLsb' 8 4) (w.extractLsb' 0 8)
  else if w.extractLsb' 21 4 = 0x4#4 then .addImm c (w.getLsbD 20) (w.extractLsb' 16 4) (w.extractLsb' 12 4) (w.extractLsb' 8 4) (w.extractLsb' 0 8)
  else if w.extractLsb' 21 4 = 0x5#4 then .adcImm c (w.getLsbD 20) (w.extractLsb' 16 4) (w.extractLsb' 12 4) (w.extractLsb' 8 4) (w.extractLsb' 0 8)
  else if w.extractLsb' 21 4 = 0x6#4 then .sbcImm c (w.getLsbD 20) (w.extractLsb' 16 4) (w.extractLsb' 12 4) (w.extractLsb' 8 4) (w.extractLsb' 0 8)
  else if w.extractLsb' 21 4 = 0x7#4 then .rscImm c (w.getLsbD 20) (w.extractLsb' 16 4) (w.extractLsb' 12 4) (w.extractLsb' 8 4) (w.extractLsb' 0 8)
  else if w.extractLsb' 21 4 = 0x8#4 then .tstImm c (w.extractLsb' 16 4) (w.extractLsb' 12 4) (w.extractLsb' 8 4) (w.extractLsb' 0 8)
  else if w.extractLsb' 21 4 = 0x9#4 then .teqImm c (w.extractLsb' 16 4) (w.extractLsb' 12 4) (w.extractLsb' 8 4) (w.extractLsb' 0 8)
  else if w.extractLsb' 21 4 = 0xA#4 then .cmpImm c (w.extractLsb' 16 4) (w.extractLsb' 12 4) (w.extractLsb' 8 4) (w.extractLsb' 0 8)
  else if w.extractLsb' 21 4 = 0xB#4 then .cmnImm c (w.extractLsb' 16 4) (w.extractLsb' 12 4) (w.extractLsb' 8 4) (w.extractLsb' 0 8)
  else if w.extractLsb' 21 4 = 0xC#4 then .orrImm c (w.getLsbD 20) (w.extractLsb' 16 4) (w.extractLsb' 12 4) (w.extractLsb' 8 4) (w.extractLsb' 0 8)
  else if w.extractLsb' 21 4 = 0xD#4 then .movImm c (w.getLsbD 20) (w.extractLsb' 16 4) (w.extractLsb' 12 4) (w.extractLsb' 8 4) (w.extractLsb' 0 8)
  else if w.extractLsb' 21 4 = 0xE#4 then .bicImm c (w.getLsbD 20) (w.extractLsb' 16 4) (w.extractLsb' 12 4) (w.extractLsb' 8 4) (w.extractLsb' 0 8)
  else .mvnImm c (w.getLsbD 20) (w.extractLsb' 16 4) (w.extractLsb' 12 4) (w.extractLsb' 8 4) (w.extractLsb' 0 8)

/-- Data processing, the register form shifted by an immediate (R177): the opcode is bits [24:21] (R175). -/
def decodeDpShImm (c : Cond) (w : Word) : Instr :=
  if w.extractLsb' 21 4 = 0x0#4 then .andShImm c (w.getLsbD 20) (w.extractLsb' 16 4) (w.extractLsb' 12 4) (w.extractLsb' 7 5) (Shift.ofBits (w.extractLsb' 5 2)) (w.extractLsb' 0 4)
  else if w.extractLsb' 21 4 = 0x1#4 then .eorShImm c (w.getLsbD 20) (w.extractLsb' 16 4) (w.extractLsb' 12 4) (w.extractLsb' 7 5) (Shift.ofBits (w.extractLsb' 5 2)) (w.extractLsb' 0 4)
  else if w.extractLsb' 21 4 = 0x2#4 then .subShImm c (w.getLsbD 20) (w.extractLsb' 16 4) (w.extractLsb' 12 4) (w.extractLsb' 7 5) (Shift.ofBits (w.extractLsb' 5 2)) (w.extractLsb' 0 4)
  else if w.extractLsb' 21 4 = 0x3#4 then .rsbShImm c (w.getLsbD 20) (w.extractLsb' 16 4) (w.extractLsb' 12 4) (w.extractLsb' 7 5) (Shift.ofBits (w.extractLsb' 5 2)) (w.extractLsb' 0 4)
  else if w.extractLsb' 21 4 = 0x4#4 then .addShImm c (w.getLsbD 20) (w.extractLsb' 16 4) (w.extractLsb' 12 4) (w.extractLsb' 7 5) (Shift.ofBits (w.extractLsb' 5 2)) (w.extractLsb' 0 4)
  else if w.extractLsb' 21 4 = 0x5#4 then .adcShImm c (w.getLsbD 20) (w.extractLsb' 16 4) (w.extractLsb' 12 4) (w.extractLsb' 7 5) (Shift.ofBits (w.extractLsb' 5 2)) (w.extractLsb' 0 4)
  else if w.extractLsb' 21 4 = 0x6#4 then .sbcShImm c (w.getLsbD 20) (w.extractLsb' 16 4) (w.extractLsb' 12 4) (w.extractLsb' 7 5) (Shift.ofBits (w.extractLsb' 5 2)) (w.extractLsb' 0 4)
  else if w.extractLsb' 21 4 = 0x7#4 then .rscShImm c (w.getLsbD 20) (w.extractLsb' 16 4) (w.extractLsb' 12 4) (w.extractLsb' 7 5) (Shift.ofBits (w.extractLsb' 5 2)) (w.extractLsb' 0 4)
  else if w.extractLsb' 21 4 = 0x8#4 then .tstShImm c (w.extractLsb' 16 4) (w.extractLsb' 12 4) (w.extractLsb' 7 5) (Shift.ofBits (w.extractLsb' 5 2)) (w.extractLsb' 0 4)
  else if w.extractLsb' 21 4 = 0x9#4 then .teqShImm c (w.extractLsb' 16 4) (w.extractLsb' 12 4) (w.extractLsb' 7 5) (Shift.ofBits (w.extractLsb' 5 2)) (w.extractLsb' 0 4)
  else if w.extractLsb' 21 4 = 0xA#4 then .cmpShImm c (w.extractLsb' 16 4) (w.extractLsb' 12 4) (w.extractLsb' 7 5) (Shift.ofBits (w.extractLsb' 5 2)) (w.extractLsb' 0 4)
  else if w.extractLsb' 21 4 = 0xB#4 then .cmnShImm c (w.extractLsb' 16 4) (w.extractLsb' 12 4) (w.extractLsb' 7 5) (Shift.ofBits (w.extractLsb' 5 2)) (w.extractLsb' 0 4)
  else if w.extractLsb' 21 4 = 0xC#4 then .orrShImm c (w.getLsbD 20) (w.extractLsb' 16 4) (w.extractLsb' 12 4) (w.extractLsb' 7 5) (Shift.ofBits (w.extractLsb' 5 2)) (w.extractLsb' 0 4)
  else if w.extractLsb' 21 4 = 0xD#4 then .movShImm c (w.getLsbD 20) (w.extractLsb' 16 4) (w.extractLsb' 12 4) (w.extractLsb' 7 5) (Shift.ofBits (w.extractLsb' 5 2)) (w.extractLsb' 0 4)
  else if w.extractLsb' 21 4 = 0xE#4 then .bicShImm c (w.getLsbD 20) (w.extractLsb' 16 4) (w.extractLsb' 12 4) (w.extractLsb' 7 5) (Shift.ofBits (w.extractLsb' 5 2)) (w.extractLsb' 0 4)
  else .mvnShImm c (w.getLsbD 20) (w.extractLsb' 16 4) (w.extractLsb' 12 4) (w.extractLsb' 7 5) (Shift.ofBits (w.extractLsb' 5 2)) (w.extractLsb' 0 4)

/-- Data processing, the register form shifted by a register (R178): the opcode is bits [24:21] (R175). -/
def decodeDpShReg (c : Cond) (w : Word) : Instr :=
  if w.extractLsb' 21 4 = 0x0#4 then .andShReg c (w.getLsbD 20) (w.extractLsb' 16 4) (w.extractLsb' 12 4) (w.extractLsb' 8 4) (Shift.ofBits (w.extractLsb' 5 2)) (w.extractLsb' 0 4)
  else if w.extractLsb' 21 4 = 0x1#4 then .eorShReg c (w.getLsbD 20) (w.extractLsb' 16 4) (w.extractLsb' 12 4) (w.extractLsb' 8 4) (Shift.ofBits (w.extractLsb' 5 2)) (w.extractLsb' 0 4)
  else if w.extractLsb' 21 4 = 0x2#4 then .subShReg c (w.getLsbD 20) (w.extractLsb' 16 4) (w.extractLsb' 12 4) (w.extractLsb' 8 4) (Shift.ofBits (w.extractLsb' 5 2)) (w.extractLsb' 0 4)
  else if w.extractLsb' 21 4 = 0x3#4 then .rsbShReg c (w.getLsbD 20) (w.extractLsb' 16 4) (w.extractLsb' 12 4) (w.extractLsb' 8 4) (Shift.ofBits (w.extractLsb' 5 2)) (w.extractLsb' 0 4)
  else if w.extractLsb' 21 4 = 0x4#4 then .addShReg c (w.getLsbD 20) (w.extractLsb' 16 4) (w.extractLsb' 12 4) (w.extractLsb' 8 4) (Shift.ofBits (w.extractLsb' 5 2)) (w.extractLsb' 0 4)
  else if w.extractLsb' 21 4 = 0x5#4 then .adcShReg c (w.getLsbD 20) (w.extractLsb' 16 4) (w.extractLsb' 12 4) (w.extractLsb' 8 4) (Shift.ofBits (w.extractLsb' 5 2)) (w.extractLsb' 0 4)
  else if w.extractLsb' 21 4 = 0x6#4 then .sbcShReg c (w.getLsbD 20) (w.extractLsb' 16 4) (w.extractLsb' 12 4) (w.extractLsb' 8 4) (Shift.ofBits (w.extractLsb' 5 2)) (w.extractLsb' 0 4)
  else if w.extractLsb' 21 4 = 0x7#4 then .rscShReg c (w.getLsbD 20) (w.extractLsb' 16 4) (w.extractLsb' 12 4) (w.extractLsb' 8 4) (Shift.ofBits (w.extractLsb' 5 2)) (w.extractLsb' 0 4)
  else if w.extractLsb' 21 4 = 0x8#4 then .tstShReg c (w.extractLsb' 16 4) (w.extractLsb' 12 4) (w.extractLsb' 8 4) (Shift.ofBits (w.extractLsb' 5 2)) (w.extractLsb' 0 4)
  else if w.extractLsb' 21 4 = 0x9#4 then .teqShReg c (w.extractLsb' 16 4) (w.extractLsb' 12 4) (w.extractLsb' 8 4) (Shift.ofBits (w.extractLsb' 5 2)) (w.extractLsb' 0 4)
  else if w.extractLsb' 21 4 = 0xA#4 then .cmpShReg c (w.extractLsb' 16 4) (w.extractLsb' 12 4) (w.extractLsb' 8 4) (Shift.ofBits (w.extractLsb' 5 2)) (w.extractLsb' 0 4)
  else if w.extractLsb' 21 4 = 0xB#4 then .cmnShReg c (w.extractLsb' 16 4) (w.extractLsb' 12 4) (w.extractLsb' 8 4) (Shift.ofBits (w.extractLsb' 5 2)) (w.extractLsb' 0 4)
  else if w.extractLsb' 21 4 = 0xC#4 then .orrShReg c (w.getLsbD 20) (w.extractLsb' 16 4) (w.extractLsb' 12 4) (w.extractLsb' 8 4) (Shift.ofBits (w.extractLsb' 5 2)) (w.extractLsb' 0 4)
  else if w.extractLsb' 21 4 = 0xD#4 then .movShReg c (w.getLsbD 20) (w.extractLsb' 16 4) (w.extractLsb' 12 4) (w.extractLsb' 8 4) (Shift.ofBits (w.extractLsb' 5 2)) (w.extractLsb' 0 4)
  else if w.extractLsb' 21 4 = 0xE#4 then .bicShReg c (w.getLsbD 20) (w.extractLsb' 16 4) (w.extractLsb' 12 4) (w.extractLsb' 8 4) (Shift.ofBits (w.extractLsb' 5 2)) (w.extractLsb' 0 4)
  else .mvnShReg c (w.getLsbD 20) (w.extractLsb' 16 4) (w.extractLsb' 12 4) (w.extractLsb' 8 4) (Shift.ofBits (w.extractLsb' 5 2)) (w.extractLsb' 0 4)

/-- The miscellaneous space (R188): bits [24:23] = 10, bit [20] = 0, not both bits [7] and [4] set. -/
def decodeMisc (c : Cond) (w : Word) : Option Instr :=
  if w.getLsbD 7 then
    if w.extractLsb' 21 2 = 0#2 then some (.smlaXY c (w.extractLsb' 16 4) (w.extractLsb' 12 4) (w.extractLsb' 8 4) (w.getLsbD 6) (w.getLsbD 5) (w.extractLsb' 0 4))
    else if w.extractLsb' 21 2 = 1#2 then
      if w.getLsbD 5 then some (.smulwY c (w.extractLsb' 16 4) (w.extractLsb' 12 4) (w.extractLsb' 8 4) (w.getLsbD 6) (w.extractLsb' 0 4)) else some (.smlawY c (w.extractLsb' 16 4) (w.extractLsb' 12 4) (w.extractLsb' 8 4) (w.getLsbD 6) (w.extractLsb' 0 4))
    else if w.extractLsb' 21 2 = 2#2 then some (.smlalXY c (w.extractLsb' 16 4) (w.extractLsb' 12 4) (w.extractLsb' 8 4) (w.getLsbD 6) (w.getLsbD 5) (w.extractLsb' 0 4))
    else some (.smulXY c (w.extractLsb' 16 4) (w.extractLsb' 12 4) (w.extractLsb' 8 4) (w.getLsbD 6) (w.getLsbD 5) (w.extractLsb' 0 4))
  else if w.extractLsb' 4 3 = 0b000#3 then
    if w.getLsbD 21 then some (.msrReg c (w.getLsbD 22) (w.extractLsb' 16 4) (w.extractLsb' 12 4) (w.extractLsb' 8 4) (w.extractLsb' 0 4)) else some (.mrs c (w.getLsbD 22) (w.extractLsb' 16 4) (w.extractLsb' 12 4) (w.extractLsb' 8 4) (w.extractLsb' 0 4))
  else if w.extractLsb' 4 3 = 0b001#3 then
    if w.extractLsb' 21 2 = 1#2 then some (.bx c (w.extractLsb' 8 12) (w.extractLsb' 0 4))
    else if w.extractLsb' 21 2 = 3#2 then some (.clz c (w.extractLsb' 16 4) (w.extractLsb' 12 4) (w.extractLsb' 8 4) (w.extractLsb' 0 4)) else none
  else if w.extractLsb' 4 3 = 0b011#3 then
    if w.extractLsb' 21 2 = 1#2 then some (.blxReg c (w.extractLsb' 8 12) (w.extractLsb' 0 4)) else none
  else if w.extractLsb' 4 3 = 0b101#3 then
    if w.extractLsb' 21 2 = 0#2 then some (.qadd c (w.extractLsb' 16 4) (w.extractLsb' 12 4) (w.extractLsb' 8 4) (w.extractLsb' 0 4))
    else if w.extractLsb' 21 2 = 1#2 then some (.qsub c (w.extractLsb' 16 4) (w.extractLsb' 12 4) (w.extractLsb' 8 4) (w.extractLsb' 0 4))
    else if w.extractLsb' 21 2 = 2#2 then some (.qdadd c (w.extractLsb' 16 4) (w.extractLsb' 12 4) (w.extractLsb' 8 4) (w.extractLsb' 0 4))
    else some (.qdsub c (w.extractLsb' 16 4) (w.extractLsb' 12 4) (w.extractLsb' 8 4) (w.extractLsb' 0 4))
  else if w.extractLsb' 4 3 = 0b111#3 then
    if w.extractLsb' 21 2 = 1#2 then (if c = .al then some (.bkpt (w.extractLsb' 8 12) (w.extractLsb' 0 4)) else none) else none
  else none

/-- The multiply and swap space (R187): bits [7:4] = 1001. -/
def decodeMul (c : Cond) (w : Word) : Option Instr :=
  if w.extractLsb' 21 4 = 0b0000#4 then some (.mul c (w.getLsbD 20) (w.extractLsb' 16 4) (w.extractLsb' 12 4) (w.extractLsb' 8 4) (w.extractLsb' 0 4))
  else if w.extractLsb' 21 4 = 0b0001#4 then some (.mla c (w.getLsbD 20) (w.extractLsb' 16 4) (w.extractLsb' 12 4) (w.extractLsb' 8 4) (w.extractLsb' 0 4))
  else if w.extractLsb' 21 4 = 0b0100#4 then some (.umull c (w.getLsbD 20) (w.extractLsb' 16 4) (w.extractLsb' 12 4) (w.extractLsb' 8 4) (w.extractLsb' 0 4))
  else if w.extractLsb' 21 4 = 0b0101#4 then some (.umlal c (w.getLsbD 20) (w.extractLsb' 16 4) (w.extractLsb' 12 4) (w.extractLsb' 8 4) (w.extractLsb' 0 4))
  else if w.extractLsb' 21 4 = 0b0110#4 then some (.smull c (w.getLsbD 20) (w.extractLsb' 16 4) (w.extractLsb' 12 4) (w.extractLsb' 8 4) (w.extractLsb' 0 4))
  else if w.extractLsb' 21 4 = 0b0111#4 then some (.smlal c (w.getLsbD 20) (w.extractLsb' 16 4) (w.extractLsb' 12 4) (w.extractLsb' 8 4) (w.extractLsb' 0 4))
  else if w.extractLsb' 21 4 = 0b1000#4 then
    if w.getLsbD 20 then none else some (.swp c (w.extractLsb' 16 4) (w.extractLsb' 12 4) (w.extractLsb' 8 4) (w.extractLsb' 0 4))
  else if w.extractLsb' 21 4 = 0b1010#4 then
    if w.getLsbD 20 then none else some (.swpb c (w.extractLsb' 16 4) (w.extractLsb' 12 4) (w.extractLsb' 8 4) (w.extractLsb' 0 4))
  else none

/-- Addressing mode 3 (R183): bits [7] and [4] set, bits [6:5] not 00; bit [22] is the immediate form, bit [20] is L. -/
def decodeMode3 (c : Cond) (w : Word) : Instr :=
  if w.getLsbD 20 then
    if w.extractLsb' 5 2 = 0b01#2 then
      if w.getLsbD 22 then .ldrhImm c (w.getLsbD 24) (w.getLsbD 23) (w.getLsbD 21) (w.extractLsb' 16 4) (w.extractLsb' 12 4) (w.extractLsb' 8 4) (w.extractLsb' 0 4) else .ldrhReg c (w.getLsbD 24) (w.getLsbD 23) (w.getLsbD 21) (w.extractLsb' 16 4) (w.extractLsb' 12 4) (w.extractLsb' 8 4) (w.extractLsb' 0 4)
    else if w.extractLsb' 5 2 = 0b10#2 then
      if w.getLsbD 22 then .ldrsbImm c (w.getLsbD 24) (w.getLsbD 23) (w.getLsbD 21) (w.extractLsb' 16 4) (w.extractLsb' 12 4) (w.extractLsb' 8 4) (w.extractLsb' 0 4) else .ldrsbReg c (w.getLsbD 24) (w.getLsbD 23) (w.getLsbD 21) (w.extractLsb' 16 4) (w.extractLsb' 12 4) (w.extractLsb' 8 4) (w.extractLsb' 0 4)
    else
      if w.getLsbD 22 then .ldrshImm c (w.getLsbD 24) (w.getLsbD 23) (w.getLsbD 21) (w.extractLsb' 16 4) (w.extractLsb' 12 4) (w.extractLsb' 8 4) (w.extractLsb' 0 4) else .ldrshReg c (w.getLsbD 24) (w.getLsbD 23) (w.getLsbD 21) (w.extractLsb' 16 4) (w.extractLsb' 12 4) (w.extractLsb' 8 4) (w.extractLsb' 0 4)
  else
    if w.extractLsb' 5 2 = 0b01#2 then
      if w.getLsbD 22 then .strhImm c (w.getLsbD 24) (w.getLsbD 23) (w.getLsbD 21) (w.extractLsb' 16 4) (w.extractLsb' 12 4) (w.extractLsb' 8 4) (w.extractLsb' 0 4) else .strhReg c (w.getLsbD 24) (w.getLsbD 23) (w.getLsbD 21) (w.extractLsb' 16 4) (w.extractLsb' 12 4) (w.extractLsb' 8 4) (w.extractLsb' 0 4)
    else if w.extractLsb' 5 2 = 0b10#2 then
      if w.getLsbD 22 then .ldrdImm c (w.getLsbD 24) (w.getLsbD 23) (w.getLsbD 21) (w.extractLsb' 16 4) (w.extractLsb' 12 4) (w.extractLsb' 8 4) (w.extractLsb' 0 4) else .ldrdReg c (w.getLsbD 24) (w.getLsbD 23) (w.getLsbD 21) (w.extractLsb' 16 4) (w.extractLsb' 12 4) (w.extractLsb' 8 4) (w.extractLsb' 0 4)
    else
      if w.getLsbD 22 then .strdImm c (w.getLsbD 24) (w.getLsbD 23) (w.getLsbD 21) (w.extractLsb' 16 4) (w.extractLsb' 12 4) (w.extractLsb' 8 4) (w.extractLsb' 0 4) else .strdReg c (w.getLsbD 24) (w.getLsbD 23) (w.getLsbD 21) (w.extractLsb' 16 4) (w.extractLsb' 12 4) (w.extractLsb' 8 4) (w.extractLsb' 0 4)

/-- Addressing mode 2 (R182), immediate offset: P = 0 with W = 1 is the T variant. -/
def decodeMode2Imm (c : Cond) (w : Word) : Instr :=
  if !w.getLsbD 24 && w.getLsbD 21 then
    if w.getLsbD 20 then
      if w.getLsbD 22 then .ldrbtImm c (w.getLsbD 23) (w.extractLsb' 16 4) (w.extractLsb' 12 4) (w.extractLsb' 0 12) else .ldrtImm c (w.getLsbD 23) (w.extractLsb' 16 4) (w.extractLsb' 12 4) (w.extractLsb' 0 12)
    else
      if w.getLsbD 22 then .strbtImm c (w.getLsbD 23) (w.extractLsb' 16 4) (w.extractLsb' 12 4) (w.extractLsb' 0 12) else .strtImm c (w.getLsbD 23) (w.extractLsb' 16 4) (w.extractLsb' 12 4) (w.extractLsb' 0 12)
  else
    if w.getLsbD 20 then
      if w.getLsbD 22 then .ldrbImm c (w.getLsbD 24) (w.getLsbD 23) (w.getLsbD 21) (w.extractLsb' 16 4) (w.extractLsb' 12 4) (w.extractLsb' 0 12) else .ldrImm c (w.getLsbD 24) (w.getLsbD 23) (w.getLsbD 21) (w.extractLsb' 16 4) (w.extractLsb' 12 4) (w.extractLsb' 0 12)
    else
      if w.getLsbD 22 then .strbImm c (w.getLsbD 24) (w.getLsbD 23) (w.getLsbD 21) (w.extractLsb' 16 4) (w.extractLsb' 12 4) (w.extractLsb' 0 12) else .strImm c (w.getLsbD 24) (w.getLsbD 23) (w.getLsbD 21) (w.extractLsb' 16 4) (w.extractLsb' 12 4) (w.extractLsb' 0 12)

/-- Addressing mode 2 (R182), register offset: P = 0 with W = 1 is the T variant. -/
def decodeMode2Reg (c : Cond) (w : Word) : Instr :=
  if !w.getLsbD 24 && w.getLsbD 21 then
    if w.getLsbD 20 then
      if w.getLsbD 22 then .ldrbtReg c (w.getLsbD 23) (w.extractLsb' 16 4) (w.extractLsb' 12 4) (w.extractLsb' 7 5) (Shift.ofBits (w.extractLsb' 5 2)) (w.extractLsb' 0 4) else .ldrtReg c (w.getLsbD 23) (w.extractLsb' 16 4) (w.extractLsb' 12 4) (w.extractLsb' 7 5) (Shift.ofBits (w.extractLsb' 5 2)) (w.extractLsb' 0 4)
    else
      if w.getLsbD 22 then .strbtReg c (w.getLsbD 23) (w.extractLsb' 16 4) (w.extractLsb' 12 4) (w.extractLsb' 7 5) (Shift.ofBits (w.extractLsb' 5 2)) (w.extractLsb' 0 4) else .strtReg c (w.getLsbD 23) (w.extractLsb' 16 4) (w.extractLsb' 12 4) (w.extractLsb' 7 5) (Shift.ofBits (w.extractLsb' 5 2)) (w.extractLsb' 0 4)
  else
    if w.getLsbD 20 then
      if w.getLsbD 22 then .ldrbReg c (w.getLsbD 24) (w.getLsbD 23) (w.getLsbD 21) (w.extractLsb' 16 4) (w.extractLsb' 12 4) (w.extractLsb' 7 5) (Shift.ofBits (w.extractLsb' 5 2)) (w.extractLsb' 0 4) else .ldrReg c (w.getLsbD 24) (w.getLsbD 23) (w.getLsbD 21) (w.extractLsb' 16 4) (w.extractLsb' 12 4) (w.extractLsb' 7 5) (Shift.ofBits (w.extractLsb' 5 2)) (w.extractLsb' 0 4)
    else
      if w.getLsbD 22 then .strbReg c (w.getLsbD 24) (w.getLsbD 23) (w.getLsbD 21) (w.extractLsb' 16 4) (w.extractLsb' 12 4) (w.extractLsb' 7 5) (Shift.ofBits (w.extractLsb' 5 2)) (w.extractLsb' 0 4) else .strReg c (w.getLsbD 24) (w.getLsbD 23) (w.getLsbD 21) (w.extractLsb' 16 4) (w.extractLsb' 12 4) (w.extractLsb' 7 5) (Shift.ofBits (w.extractLsb' 5 2)) (w.extractLsb' 0 4)

/-- Load and store multiple (R184, R399): bit [22] is S, bit [20] is L, and bit [15] splits LDM(2) from LDM(3). -/
def decodeMulti (c : Cond) (w : Word) : Instr :=
  if w.getLsbD 20 then
    if w.getLsbD 22 then
      if w.getLsbD 15 then .ldm3 c (w.getLsbD 24) (w.getLsbD 23) (w.getLsbD 21) (w.extractLsb' 16 4) (w.extractLsb' 0 15) else .ldm2 c (w.getLsbD 24) (w.getLsbD 23) (w.extractLsb' 21 1) (w.extractLsb' 16 4) (w.extractLsb' 0 15)
    else .ldm1 c (w.getLsbD 24) (w.getLsbD 23) (w.getLsbD 21) (w.extractLsb' 16 4) (w.extractLsb' 0 16)
  else
    if w.getLsbD 22 then .stm2 c (w.getLsbD 24) (w.getLsbD 23) (w.extractLsb' 21 1) (w.extractLsb' 16 4) (w.extractLsb' 0 16) else .stm1 c (w.getLsbD 24) (w.getLsbD 23) (w.getLsbD 21) (w.extractLsb' 16 4) (w.extractLsb' 0 16)

/-- Coprocessor load, store and two-register transfer (R185): bits [24:21] = 0010 are MCRR and MRRC. -/
def decodeCopMem (c : Cond) (w : Word) : Instr :=
  if w.extractLsb' 21 4 = 0b0010#4 then
    if w.getLsbD 20 then .mrrc c (w.extractLsb' 16 4) (w.extractLsb' 12 4) (w.extractLsb' 8 4) (w.extractLsb' 4 4) (w.extractLsb' 0 4) else .mcrr c (w.extractLsb' 16 4) (w.extractLsb' 12 4) (w.extractLsb' 8 4) (w.extractLsb' 4 4) (w.extractLsb' 0 4)
  else
    if w.getLsbD 20 then .ldc c (w.getLsbD 24) (w.getLsbD 23) (w.getLsbD 22) (w.getLsbD 21) (w.extractLsb' 16 4) (w.extractLsb' 12 4) (w.extractLsb' 8 4) (w.extractLsb' 0 8) else .stc c (w.getLsbD 24) (w.getLsbD 23) (w.getLsbD 22) (w.getLsbD 21) (w.extractLsb' 16 4) (w.extractLsb' 12 4) (w.extractLsb' 8 4) (w.extractLsb' 0 8)

/-- CDP, MCR and MRC (R174, R190): the register transfers of CP15 and CP14 have constructors of their own. -/
def decodeCopReg (c : Cond) (w : Word) : Instr :=
  if !w.getLsbD 4 then .cdp c (w.extractLsb' 20 4) (w.extractLsb' 16 4) (w.extractLsb' 12 4) (w.extractLsb' 8 4) (w.extractLsb' 5 3) (w.extractLsb' 0 4)
  else if w.extractLsb' 8 4 = 15#4 then
    if w.getLsbD 20 then .mrc15 c (w.extractLsb' 21 3) (w.extractLsb' 16 4) (w.extractLsb' 12 4) (w.extractLsb' 5 3) (w.extractLsb' 0 4) else .mcr15 c (w.extractLsb' 21 3) (w.extractLsb' 16 4) (w.extractLsb' 12 4) (w.extractLsb' 5 3) (w.extractLsb' 0 4)
  else if w.extractLsb' 8 4 = 14#4 then
    if w.getLsbD 20 then .mrc14 c (w.extractLsb' 21 3) (w.extractLsb' 16 4) (w.extractLsb' 12 4) (w.extractLsb' 5 3) (w.extractLsb' 0 4) else .mcr14 c (w.extractLsb' 21 3) (w.extractLsb' 16 4) (w.extractLsb' 12 4) (w.extractLsb' 5 3) (w.extractLsb' 0 4)
  else
    if w.getLsbD 20 then .mrc c (w.extractLsb' 21 3) (w.extractLsb' 16 4) (w.extractLsb' 12 4) (w.extractLsb' 8 4) (w.extractLsb' 5 3) (w.extractLsb' 0 4) else .mcr c (w.extractLsb' 21 3) (w.extractLsb' 16 4) (w.extractLsb' 12 4) (w.extractLsb' 8 4) (w.extractLsb' 5 3) (w.extractLsb' 0 4)

/-- The top level for a condition other than 1111 (R174). -/
def decodeCond (c : Cond) (w : Word) : Option Instr :=
  if w.extractLsb' 25 3 = 0b000#3 then
    if w.getLsbD 7 && w.getLsbD 4 then
      if w.extractLsb' 5 2 = 0b00#2 then decodeMul c w else some (decodeMode3 c w)
    else if w.extractLsb' 23 2 = 0b10#2 && !w.getLsbD 20 then decodeMisc c w
    else if w.getLsbD 4 then some (decodeDpShReg c w) else some (decodeDpShImm c w)
  else if w.extractLsb' 25 3 = 0b001#3 then
    if w.extractLsb' 23 2 = 0b10#2 && !w.getLsbD 20 then
      if w.getLsbD 21 then some (.msrImm c (w.getLsbD 22) (w.extractLsb' 16 4) (w.extractLsb' 12 4) (w.extractLsb' 8 4) (w.extractLsb' 0 8)) else some (.undefMisc c (w.extractLsb' 22 1) (w.extractLsb' 0 20))
    else some (decodeDpImm c w)
  else if w.extractLsb' 25 3 = 0b010#3 then some (decodeMode2Imm c w)
  else if w.extractLsb' 25 3 = 0b011#3 then
    if w.getLsbD 4 then some (.undefMedia c (w.extractLsb' 5 20) (w.extractLsb' 0 4)) else some (decodeMode2Reg c w)
  else if w.extractLsb' 25 3 = 0b100#3 then some (decodeMulti c w)
  else if w.extractLsb' 25 3 = 0b101#3 then
    if w.getLsbD 24 then some (.bl c (w.extractLsb' 0 24)) else some (.b c (w.extractLsb' 0 24))
  else if w.extractLsb' 25 3 = 0b110#3 then some (decodeCopMem c w)
  else if w.getLsbD 24 then some (.swi c (w.extractLsb' 0 24)) else some (decodeCopReg c w)

/-- The unconditional space, bits [31:28] = 1111 (R173): BLX(1), PLD, and the second coprocessor set. -/
def decodeUncond (w : Word) : Option Instr :=
  if w.extractLsb' 25 3 = 0b101#3 then some (.blxImm (w.getLsbD 24) (w.extractLsb' 0 24))
  else if w.extractLsb' 25 3 = 0b010#3 then
    if w.getLsbD 24 && w.extractLsb' 20 3 = 0b101#3 && w.extractLsb' 12 4 = 0b1111#4 then some (.pldImm (w.getLsbD 23) (w.extractLsb' 16 4) (w.extractLsb' 0 12)) else none
  else if w.extractLsb' 25 3 = 0b011#3 then
    if w.getLsbD 24 && w.extractLsb' 20 3 = 0b101#3 && w.extractLsb' 12 4 = 0b1111#4 && !w.getLsbD 4 then
      some (.pldReg (w.getLsbD 23) (w.extractLsb' 16 4) (w.extractLsb' 7 5) (Shift.ofBits (w.extractLsb' 5 2)) (w.extractLsb' 0 4)) else none
  else if w.extractLsb' 25 3 = 0b110#3 then
    if w.extractLsb' 21 4 = 0b0010#4 then none
    else if w.getLsbD 20 then some (.ldc2 (w.getLsbD 24) (w.getLsbD 23) (w.getLsbD 22) (w.getLsbD 21) (w.extractLsb' 16 4) (w.extractLsb' 12 4) (w.extractLsb' 8 4) (w.extractLsb' 0 8)) else some (.stc2 (w.getLsbD 24) (w.getLsbD 23) (w.getLsbD 22) (w.getLsbD 21) (w.extractLsb' 16 4) (w.extractLsb' 12 4) (w.extractLsb' 8 4) (w.extractLsb' 0 8))
  else if w.extractLsb' 24 4 = 0b1110#4 then
    if !w.getLsbD 4 then some (.cdp2 (w.extractLsb' 20 4) (w.extractLsb' 16 4) (w.extractLsb' 12 4) (w.extractLsb' 8 4) (w.extractLsb' 5 3) (w.extractLsb' 0 4))
    else if w.getLsbD 20 then some (.mrc2 (w.extractLsb' 21 3) (w.extractLsb' 16 4) (w.extractLsb' 12 4) (w.extractLsb' 8 4) (w.extractLsb' 5 3) (w.extractLsb' 0 4)) else some (.mcr2 (w.extractLsb' 21 3) (w.extractLsb' 16 4) (w.extractLsb' 12 4) (w.extractLsb' 8 4) (w.extractLsb' 5 3) (w.extractLsb' 0 4))
  else none

/-- The instruction an ARM word is, if a row of the opcode table holds it (R174, R173, R228). -/
def decodeArm (w : Word) : Option Instr :=
  match Cond.ofBits (w.extractLsb' 28 4) with
  | some c => decodeCond c w
  | none => decodeUncond w

/-! ### Thumb -/

/-- Data processing, register (R202): the opcode is bits [9:6]. -/
def decodeThumbDp (h : Half) : Instr :=
  if h.extractLsb' 6 4 = 0x0#4 then .tAnd (h.extractLsb' 3 3) (h.extractLsb' 0 3)
  else if h.extractLsb' 6 4 = 0x1#4 then .tEor (h.extractLsb' 3 3) (h.extractLsb' 0 3)
  else if h.extractLsb' 6 4 = 0x2#4 then .tLslReg (h.extractLsb' 3 3) (h.extractLsb' 0 3)
  else if h.extractLsb' 6 4 = 0x3#4 then .tLsrReg (h.extractLsb' 3 3) (h.extractLsb' 0 3)
  else if h.extractLsb' 6 4 = 0x4#4 then .tAsrReg (h.extractLsb' 3 3) (h.extractLsb' 0 3)
  else if h.extractLsb' 6 4 = 0x5#4 then .tAdc (h.extractLsb' 3 3) (h.extractLsb' 0 3)
  else if h.extractLsb' 6 4 = 0x6#4 then .tSbc (h.extractLsb' 3 3) (h.extractLsb' 0 3)
  else if h.extractLsb' 6 4 = 0x7#4 then .tRor (h.extractLsb' 3 3) (h.extractLsb' 0 3)
  else if h.extractLsb' 6 4 = 0x8#4 then .tTst (h.extractLsb' 3 3) (h.extractLsb' 0 3)
  else if h.extractLsb' 6 4 = 0x9#4 then .tNeg (h.extractLsb' 3 3) (h.extractLsb' 0 3)
  else if h.extractLsb' 6 4 = 0xA#4 then .tCmpReg (h.extractLsb' 3 3) (h.extractLsb' 0 3)
  else if h.extractLsb' 6 4 = 0xB#4 then .tCmn (h.extractLsb' 3 3) (h.extractLsb' 0 3)
  else if h.extractLsb' 6 4 = 0xC#4 then .tOrr (h.extractLsb' 3 3) (h.extractLsb' 0 3)
  else if h.extractLsb' 6 4 = 0xD#4 then .tMul (h.extractLsb' 3 3) (h.extractLsb' 0 3)
  else if h.extractLsb' 6 4 = 0xE#4 then .tBic (h.extractLsb' 3 3) (h.extractLsb' 0 3)
  else .tMvn (h.extractLsb' 3 3) (h.extractLsb' 0 3)

/-- Load and store with a register offset (R200): the opcode is bits [11:9]. -/
def decodeThumbMemReg (h : Half) : Instr :=
  if h.extractLsb' 9 3 = 0#3 then .tStrReg (h.extractLsb' 6 3) (h.extractLsb' 3 3) (h.extractLsb' 0 3)
  else if h.extractLsb' 9 3 = 1#3 then .tStrhReg (h.extractLsb' 6 3) (h.extractLsb' 3 3) (h.extractLsb' 0 3)
  else if h.extractLsb' 9 3 = 2#3 then .tStrbReg (h.extractLsb' 6 3) (h.extractLsb' 3 3) (h.extractLsb' 0 3)
  else if h.extractLsb' 9 3 = 3#3 then .tLdrsb (h.extractLsb' 6 3) (h.extractLsb' 3 3) (h.extractLsb' 0 3)
  else if h.extractLsb' 9 3 = 4#3 then .tLdrReg (h.extractLsb' 6 3) (h.extractLsb' 3 3) (h.extractLsb' 0 3)
  else if h.extractLsb' 9 3 = 5#3 then .tLdrhReg (h.extractLsb' 6 3) (h.extractLsb' 3 3) (h.extractLsb' 0 3)
  else if h.extractLsb' 9 3 = 6#3 then .tLdrbReg (h.extractLsb' 6 3) (h.extractLsb' 3 3) (h.extractLsb' 0 3)
  else .tLdrsh (h.extractLsb' 6 3) (h.extractLsb' 3 3) (h.extractLsb' 0 3)

/-- The rows of bits [15:13] = 000 (R200): shifts by immediate, add and subtract. -/
def decodeThumb0 (h : Half) : Instr :=
  if h.extractLsb' 11 2 = 0b00#2 then .tLslImm (h.extractLsb' 6 5) (h.extractLsb' 3 3) (h.extractLsb' 0 3)
  else if h.extractLsb' 11 2 = 0b01#2 then .tLsrImm (h.extractLsb' 6 5) (h.extractLsb' 3 3) (h.extractLsb' 0 3)
  else if h.extractLsb' 11 2 = 0b10#2 then .tAsrImm (h.extractLsb' 6 5) (h.extractLsb' 3 3) (h.extractLsb' 0 3)
  else if h.extractLsb' 9 2 = 0b00#2 then .tAddReg (h.extractLsb' 6 3) (h.extractLsb' 3 3) (h.extractLsb' 0 3)
  else if h.extractLsb' 9 2 = 0b01#2 then .tSubReg (h.extractLsb' 6 3) (h.extractLsb' 3 3) (h.extractLsb' 0 3)
  else if h.extractLsb' 9 2 = 0b10#2 then .tAddImm3 (h.extractLsb' 6 3) (h.extractLsb' 3 3) (h.extractLsb' 0 3)
  else .tSubImm3 (h.extractLsb' 6 3) (h.extractLsb' 3 3) (h.extractLsb' 0 3)

/-- The rows of bits [15:13] = 001 (R200): move, compare, add, subtract with an 8-bit immediate. -/
def decodeThumb1 (h : Half) : Instr :=
  if h.extractLsb' 11 2 = 0b00#2 then .tMovImm (h.extractLsb' 8 3) (h.extractLsb' 0 8)
  else if h.extractLsb' 11 2 = 0b01#2 then .tCmpImm (h.extractLsb' 8 3) (h.extractLsb' 0 8)
  else if h.extractLsb' 11 2 = 0b10#2 then .tAddImm8 (h.extractLsb' 8 3) (h.extractLsb' 0 8)
  else .tSubImm8 (h.extractLsb' 8 3) (h.extractLsb' 0 8)

/-- The rows of bits [15:13] = 010 (R200). -/
def decodeThumb2 (h : Half) : Instr :=
  if h.getLsbD 12 then decodeThumbMemReg h
  else if h.getLsbD 11 then .tLdrPc (h.extractLsb' 8 3) (h.extractLsb' 0 8)
  else if !h.getLsbD 10 then decodeThumbDp h
  else if h.extractLsb' 8 2 = 0b00#2 then .tAddHi (h.getLsbD 7) (h.getLsbD 6) (h.extractLsb' 3 3) (h.extractLsb' 0 3)
  else if h.extractLsb' 8 2 = 0b01#2 then .tCmpHi (h.getLsbD 7) (h.getLsbD 6) (h.extractLsb' 3 3) (h.extractLsb' 0 3)
  else if h.extractLsb' 8 2 = 0b10#2 then .tMovHi (h.getLsbD 7) (h.getLsbD 6) (h.extractLsb' 3 3) (h.extractLsb' 0 3)
  else if h.getLsbD 7 then .tBlxReg (h.getLsbD 6) (h.extractLsb' 3 3) (h.extractLsb' 0 3) else .tBx (h.getLsbD 6) (h.extractLsb' 3 3) (h.extractLsb' 0 3)

/-- The rows of bits [15:13] = 011 (R200): words and bytes, immediate offset. -/
def decodeThumb3 (h : Half) : Instr :=
  if h.extractLsb' 11 2 = 0b00#2 then .tStrImm (h.extractLsb' 6 5) (h.extractLsb' 3 3) (h.extractLsb' 0 3)
  else if h.extractLsb' 11 2 = 0b01#2 then .tLdrImm (h.extractLsb' 6 5) (h.extractLsb' 3 3) (h.extractLsb' 0 3)
  else if h.extractLsb' 11 2 = 0b10#2 then .tStrbImm (h.extractLsb' 6 5) (h.extractLsb' 3 3) (h.extractLsb' 0 3)
  else .tLdrbImm (h.extractLsb' 6 5) (h.extractLsb' 3 3) (h.extractLsb' 0 3)

/-- The rows of bits [15:13] = 100 (R200): halfwords, and words relative to SP. -/
def decodeThumb4 (h : Half) : Instr :=
  if h.extractLsb' 11 2 = 0b00#2 then .tStrhImm (h.extractLsb' 6 5) (h.extractLsb' 3 3) (h.extractLsb' 0 3)
  else if h.extractLsb' 11 2 = 0b01#2 then .tLdrhImm (h.extractLsb' 6 5) (h.extractLsb' 3 3) (h.extractLsb' 0 3)
  else if h.extractLsb' 11 2 = 0b10#2 then .tStrSp (h.extractLsb' 8 3) (h.extractLsb' 0 8)
  else .tLdrSp (h.extractLsb' 8 3) (h.extractLsb' 0 8)

/-- The rows of bits [15:13] = 101 (R200, R207(c)). -/
def decodeThumb5 (h : Half) : Option Instr :=
  if !h.getLsbD 12 then
    if h.getLsbD 11 then some (.tAddSp (h.extractLsb' 8 3) (h.extractLsb' 0 8)) else some (.tAddPc (h.extractLsb' 8 3) (h.extractLsb' 0 8))
  else if h.extractLsb' 9 3 = 0b000#3 then
    if h.getLsbD 8 then none
    else if h.getLsbD 7 then some (.tDecSp (h.extractLsb' 0 7)) else some (.tIncSp (h.extractLsb' 0 7))
  else if h.extractLsb' 9 3 = 0b010#3 then some (.tPush (h.getLsbD 8) (h.extractLsb' 0 8))
  else if h.extractLsb' 9 3 = 0b110#3 then some (.tPop (h.getLsbD 8) (h.extractLsb' 0 8))
  else if h.extractLsb' 9 3 = 0b111#3 then
    if h.getLsbD 8 then none else some (.tBkpt (h.extractLsb' 0 8))
  else none

/-- The rows of bits [15:13] = 110 (R200, R206). -/
def decodeThumb6 (h : Half) : Instr :=
  if !h.getLsbD 12 then
    if h.getLsbD 11 then .tLdmia (h.extractLsb' 8 3) (h.extractLsb' 0 8) else .tStmia (h.extractLsb' 8 3) (h.extractLsb' 0 8)
  else match Cond.ofBits (h.extractLsb' 8 4) with
    | none => .tSwi (h.extractLsb' 0 8)
    | some c => if c = .al then .tUndef (h.extractLsb' 0 8) else .tBCond c (h.extractLsb' 0 8)

/-- The rows of bits [15:13] = 111 (R200, R204, R207(b)). -/
def decodeThumb7 (h : Half) : Option Instr :=
  if h.extractLsb' 11 2 = 0b00#2 then some (.tB (h.extractLsb' 0 11))
  else if h.extractLsb' 11 2 = 0b01#2 then
    if h.getLsbD 0 then none else some (.tBlxSuffix (h.extractLsb' 1 10))
  else if h.extractLsb' 11 2 = 0b10#2 then some (.tBlPrefix (h.extractLsb' 0 11))
  else some (.tBlSuffix (h.extractLsb' 0 11))

/-- The instruction a Thumb halfword is, if a row of the opcode table holds it (R200, R228). -/
def decodeThumb (h : Half) : Option Instr :=
  if h.extractLsb' 13 3 = 0#3 then some (decodeThumb0 h)
  else if h.extractLsb' 13 3 = 1#3 then some (decodeThumb1 h)
  else if h.extractLsb' 13 3 = 2#3 then some (decodeThumb2 h)
  else if h.extractLsb' 13 3 = 3#3 then some (decodeThumb3 h)
  else if h.extractLsb' 13 3 = 4#3 then some (decodeThumb4 h)
  else if h.extractLsb' 13 3 = 5#3 then decodeThumb5 h
  else if h.extractLsb' 13 3 = 6#3 then some (decodeThumb6 h)
  else decodeThumb7 h

/-! ### The decoder -/

/-- The decoder, total on every word and halfword; a word no row holds is rejected by name (R196, R207). -/
def decode : Code → Except DecodeError Instr
  | .arm w => match decodeArm w with
    | some i => .ok i
    | none => .error (.unallocatedArm w)
  | .thumb h => match decodeThumb h with
    | some i => .ok i
    | none => .error (.unallocatedThumb h)

/-- The instruction in the bytes at an address, lowest address first, in the byte order of the B bit: a word when
`thumb` is false, else a halfword. With B = 1 the byte at the lowest address is the most significant one (R104, R108). -/
def decodeBytes (thumb big : Bool) (bytes : List Byte) : Except DecodeError Instr :=
  match thumb, if big then bytes.reverse else bytes with
  | false, [b0, b1, b2, b3] => decode (.arm (b3 ++ b2 ++ b1 ++ b0))
  | true, [b0, b1] => decode (.thumb (b1 ++ b0))
  | _, _ => .error .badLength

/-- The `n` lowest bytes of a number, least significant first: how little-endian memory holds it (R105). -/
def leBytes : Nat → Nat → List Byte
  | 0, _ => []
  | n + 1, w => BitVec.ofNat 8 w :: leBytes n (w / 256)

/-- The instruction the decoder reads from an opcode-table row's word: a 32-bit row is an ARM word, a 16-bit row a Thumb
halfword, stored little-endian (R105, the byte order after reset). -/
def decodeTableWord (nbits w : Nat) : Option Instr :=
  if nbits = 32 then (decodeBytes false false (leBytes 4 w)).toOption
  else if nbits = 16 then (decodeBytes true false (leBytes 2 w)).toOption
  else none

/-! ### The encoder -/

/-- `n` bits: `hi` above `lo`. The encoder gives `n` as the sum of the two widths. -/
def put {a b : Nat} (n : Nat) (hi : BitVec a) (lo : BitVec b) : BitVec n := (hi ++ lo).setWidth n

/-- The word or halfword of an instruction: the `match` of its opcode-table row with its fields put in (R228). -/
def encode : Instr → Code
  | .andImm c sf rn rd rot imm => .arm (put 32 c.bits (put 28 0b0010000#7 (put 21 (BitVec.ofBool sf) (put 20 rn (put 16 rd (put 12 rot imm))))))
  | .andShImm c sf rn rd sa sh rm => .arm (put 32 c.bits (put 28 0b0000000#7 (put 21 (BitVec.ofBool sf) (put 20 rn (put 16 rd (put 12 sa (put 7 sh.bits (put 5 0b0#1 rm))))))))
  | .andShReg c sf rn rd rs sh rm => .arm (put 32 c.bits (put 28 0b0000000#7 (put 21 (BitVec.ofBool sf) (put 20 rn (put 16 rd (put 12 rs (put 8 0b0#1 (put 7 sh.bits (put 5 0b1#1 rm)))))))))
  | .eorImm c sf rn rd rot imm => .arm (put 32 c.bits (put 28 0b0010001#7 (put 21 (BitVec.ofBool sf) (put 20 rn (put 16 rd (put 12 rot imm))))))
  | .eorShImm c sf rn rd sa sh rm => .arm (put 32 c.bits (put 28 0b0000001#7 (put 21 (BitVec.ofBool sf) (put 20 rn (put 16 rd (put 12 sa (put 7 sh.bits (put 5 0b0#1 rm))))))))
  | .eorShReg c sf rn rd rs sh rm => .arm (put 32 c.bits (put 28 0b0000001#7 (put 21 (BitVec.ofBool sf) (put 20 rn (put 16 rd (put 12 rs (put 8 0b0#1 (put 7 sh.bits (put 5 0b1#1 rm)))))))))
  | .subImm c sf rn rd rot imm => .arm (put 32 c.bits (put 28 0b0010010#7 (put 21 (BitVec.ofBool sf) (put 20 rn (put 16 rd (put 12 rot imm))))))
  | .subShImm c sf rn rd sa sh rm => .arm (put 32 c.bits (put 28 0b0000010#7 (put 21 (BitVec.ofBool sf) (put 20 rn (put 16 rd (put 12 sa (put 7 sh.bits (put 5 0b0#1 rm))))))))
  | .subShReg c sf rn rd rs sh rm => .arm (put 32 c.bits (put 28 0b0000010#7 (put 21 (BitVec.ofBool sf) (put 20 rn (put 16 rd (put 12 rs (put 8 0b0#1 (put 7 sh.bits (put 5 0b1#1 rm)))))))))
  | .rsbImm c sf rn rd rot imm => .arm (put 32 c.bits (put 28 0b0010011#7 (put 21 (BitVec.ofBool sf) (put 20 rn (put 16 rd (put 12 rot imm))))))
  | .rsbShImm c sf rn rd sa sh rm => .arm (put 32 c.bits (put 28 0b0000011#7 (put 21 (BitVec.ofBool sf) (put 20 rn (put 16 rd (put 12 sa (put 7 sh.bits (put 5 0b0#1 rm))))))))
  | .rsbShReg c sf rn rd rs sh rm => .arm (put 32 c.bits (put 28 0b0000011#7 (put 21 (BitVec.ofBool sf) (put 20 rn (put 16 rd (put 12 rs (put 8 0b0#1 (put 7 sh.bits (put 5 0b1#1 rm)))))))))
  | .addImm c sf rn rd rot imm => .arm (put 32 c.bits (put 28 0b0010100#7 (put 21 (BitVec.ofBool sf) (put 20 rn (put 16 rd (put 12 rot imm))))))
  | .addShImm c sf rn rd sa sh rm => .arm (put 32 c.bits (put 28 0b0000100#7 (put 21 (BitVec.ofBool sf) (put 20 rn (put 16 rd (put 12 sa (put 7 sh.bits (put 5 0b0#1 rm))))))))
  | .addShReg c sf rn rd rs sh rm => .arm (put 32 c.bits (put 28 0b0000100#7 (put 21 (BitVec.ofBool sf) (put 20 rn (put 16 rd (put 12 rs (put 8 0b0#1 (put 7 sh.bits (put 5 0b1#1 rm)))))))))
  | .adcImm c sf rn rd rot imm => .arm (put 32 c.bits (put 28 0b0010101#7 (put 21 (BitVec.ofBool sf) (put 20 rn (put 16 rd (put 12 rot imm))))))
  | .adcShImm c sf rn rd sa sh rm => .arm (put 32 c.bits (put 28 0b0000101#7 (put 21 (BitVec.ofBool sf) (put 20 rn (put 16 rd (put 12 sa (put 7 sh.bits (put 5 0b0#1 rm))))))))
  | .adcShReg c sf rn rd rs sh rm => .arm (put 32 c.bits (put 28 0b0000101#7 (put 21 (BitVec.ofBool sf) (put 20 rn (put 16 rd (put 12 rs (put 8 0b0#1 (put 7 sh.bits (put 5 0b1#1 rm)))))))))
  | .sbcImm c sf rn rd rot imm => .arm (put 32 c.bits (put 28 0b0010110#7 (put 21 (BitVec.ofBool sf) (put 20 rn (put 16 rd (put 12 rot imm))))))
  | .sbcShImm c sf rn rd sa sh rm => .arm (put 32 c.bits (put 28 0b0000110#7 (put 21 (BitVec.ofBool sf) (put 20 rn (put 16 rd (put 12 sa (put 7 sh.bits (put 5 0b0#1 rm))))))))
  | .sbcShReg c sf rn rd rs sh rm => .arm (put 32 c.bits (put 28 0b0000110#7 (put 21 (BitVec.ofBool sf) (put 20 rn (put 16 rd (put 12 rs (put 8 0b0#1 (put 7 sh.bits (put 5 0b1#1 rm)))))))))
  | .rscImm c sf rn rd rot imm => .arm (put 32 c.bits (put 28 0b0010111#7 (put 21 (BitVec.ofBool sf) (put 20 rn (put 16 rd (put 12 rot imm))))))
  | .rscShImm c sf rn rd sa sh rm => .arm (put 32 c.bits (put 28 0b0000111#7 (put 21 (BitVec.ofBool sf) (put 20 rn (put 16 rd (put 12 sa (put 7 sh.bits (put 5 0b0#1 rm))))))))
  | .rscShReg c sf rn rd rs sh rm => .arm (put 32 c.bits (put 28 0b0000111#7 (put 21 (BitVec.ofBool sf) (put 20 rn (put 16 rd (put 12 rs (put 8 0b0#1 (put 7 sh.bits (put 5 0b1#1 rm)))))))))
  | .tstImm c rn z rot imm => .arm (put 32 c.bits (put 28 0b00110001#8 (put 20 rn (put 16 z (put 12 rot imm)))))
  | .tstShImm c rn z sa sh rm => .arm (put 32 c.bits (put 28 0b00010001#8 (put 20 rn (put 16 z (put 12 sa (put 7 sh.bits (put 5 0b0#1 rm)))))))
  | .tstShReg c rn z rs sh rm => .arm (put 32 c.bits (put 28 0b00010001#8 (put 20 rn (put 16 z (put 12 rs (put 8 0b0#1 (put 7 sh.bits (put 5 0b1#1 rm))))))))
  | .teqImm c rn z rot imm => .arm (put 32 c.bits (put 28 0b00110011#8 (put 20 rn (put 16 z (put 12 rot imm)))))
  | .teqShImm c rn z sa sh rm => .arm (put 32 c.bits (put 28 0b00010011#8 (put 20 rn (put 16 z (put 12 sa (put 7 sh.bits (put 5 0b0#1 rm)))))))
  | .teqShReg c rn z rs sh rm => .arm (put 32 c.bits (put 28 0b00010011#8 (put 20 rn (put 16 z (put 12 rs (put 8 0b0#1 (put 7 sh.bits (put 5 0b1#1 rm))))))))
  | .cmpImm c rn z rot imm => .arm (put 32 c.bits (put 28 0b00110101#8 (put 20 rn (put 16 z (put 12 rot imm)))))
  | .cmpShImm c rn z sa sh rm => .arm (put 32 c.bits (put 28 0b00010101#8 (put 20 rn (put 16 z (put 12 sa (put 7 sh.bits (put 5 0b0#1 rm)))))))
  | .cmpShReg c rn z rs sh rm => .arm (put 32 c.bits (put 28 0b00010101#8 (put 20 rn (put 16 z (put 12 rs (put 8 0b0#1 (put 7 sh.bits (put 5 0b1#1 rm))))))))
  | .cmnImm c rn z rot imm => .arm (put 32 c.bits (put 28 0b00110111#8 (put 20 rn (put 16 z (put 12 rot imm)))))
  | .cmnShImm c rn z sa sh rm => .arm (put 32 c.bits (put 28 0b00010111#8 (put 20 rn (put 16 z (put 12 sa (put 7 sh.bits (put 5 0b0#1 rm)))))))
  | .cmnShReg c rn z rs sh rm => .arm (put 32 c.bits (put 28 0b00010111#8 (put 20 rn (put 16 z (put 12 rs (put 8 0b0#1 (put 7 sh.bits (put 5 0b1#1 rm))))))))
  | .orrImm c sf rn rd rot imm => .arm (put 32 c.bits (put 28 0b0011100#7 (put 21 (BitVec.ofBool sf) (put 20 rn (put 16 rd (put 12 rot imm))))))
  | .orrShImm c sf rn rd sa sh rm => .arm (put 32 c.bits (put 28 0b0001100#7 (put 21 (BitVec.ofBool sf) (put 20 rn (put 16 rd (put 12 sa (put 7 sh.bits (put 5 0b0#1 rm))))))))
  | .orrShReg c sf rn rd rs sh rm => .arm (put 32 c.bits (put 28 0b0001100#7 (put 21 (BitVec.ofBool sf) (put 20 rn (put 16 rd (put 12 rs (put 8 0b0#1 (put 7 sh.bits (put 5 0b1#1 rm)))))))))
  | .movImm c sf z rd rot imm => .arm (put 32 c.bits (put 28 0b0011101#7 (put 21 (BitVec.ofBool sf) (put 20 z (put 16 rd (put 12 rot imm))))))
  | .movShImm c sf z rd sa sh rm => .arm (put 32 c.bits (put 28 0b0001101#7 (put 21 (BitVec.ofBool sf) (put 20 z (put 16 rd (put 12 sa (put 7 sh.bits (put 5 0b0#1 rm))))))))
  | .movShReg c sf z rd rs sh rm => .arm (put 32 c.bits (put 28 0b0001101#7 (put 21 (BitVec.ofBool sf) (put 20 z (put 16 rd (put 12 rs (put 8 0b0#1 (put 7 sh.bits (put 5 0b1#1 rm)))))))))
  | .bicImm c sf rn rd rot imm => .arm (put 32 c.bits (put 28 0b0011110#7 (put 21 (BitVec.ofBool sf) (put 20 rn (put 16 rd (put 12 rot imm))))))
  | .bicShImm c sf rn rd sa sh rm => .arm (put 32 c.bits (put 28 0b0001110#7 (put 21 (BitVec.ofBool sf) (put 20 rn (put 16 rd (put 12 sa (put 7 sh.bits (put 5 0b0#1 rm))))))))
  | .bicShReg c sf rn rd rs sh rm => .arm (put 32 c.bits (put 28 0b0001110#7 (put 21 (BitVec.ofBool sf) (put 20 rn (put 16 rd (put 12 rs (put 8 0b0#1 (put 7 sh.bits (put 5 0b1#1 rm)))))))))
  | .mvnImm c sf z rd rot imm => .arm (put 32 c.bits (put 28 0b0011111#7 (put 21 (BitVec.ofBool sf) (put 20 z (put 16 rd (put 12 rot imm))))))
  | .mvnShImm c sf z rd sa sh rm => .arm (put 32 c.bits (put 28 0b0001111#7 (put 21 (BitVec.ofBool sf) (put 20 z (put 16 rd (put 12 sa (put 7 sh.bits (put 5 0b0#1 rm))))))))
  | .mvnShReg c sf z rd rs sh rm => .arm (put 32 c.bits (put 28 0b0001111#7 (put 21 (BitVec.ofBool sf) (put 20 z (put 16 rd (put 12 rs (put 8 0b0#1 (put 7 sh.bits (put 5 0b1#1 rm)))))))))
  | .clz c o1 rd o2 rm => .arm (put 32 c.bits (put 28 0b00010110#8 (put 20 o1 (put 16 rd (put 12 o2 (put 8 0b0001#4 rm))))))
  | .mul c sf rd z rs rm => .arm (put 32 c.bits (put 28 0b0000000#7 (put 21 (BitVec.ofBool sf) (put 20 rd (put 16 z (put 12 rs (put 8 0b1001#4 rm)))))))
  | .mla c sf rd rn rs rm => .arm (put 32 c.bits (put 28 0b0000001#7 (put 21 (BitVec.ofBool sf) (put 20 rd (put 16 rn (put 12 rs (put 8 0b1001#4 rm)))))))
  | .umull c sf rdHi rdLo rs rm => .arm (put 32 c.bits (put 28 0b0000100#7 (put 21 (BitVec.ofBool sf) (put 20 rdHi (put 16 rdLo (put 12 rs (put 8 0b1001#4 rm)))))))
  | .umlal c sf rdHi rdLo rs rm => .arm (put 32 c.bits (put 28 0b0000101#7 (put 21 (BitVec.ofBool sf) (put 20 rdHi (put 16 rdLo (put 12 rs (put 8 0b1001#4 rm)))))))
  | .smull c sf rdHi rdLo rs rm => .arm (put 32 c.bits (put 28 0b0000110#7 (put 21 (BitVec.ofBool sf) (put 20 rdHi (put 16 rdLo (put 12 rs (put 8 0b1001#4 rm)))))))
  | .smlal c sf rdHi rdLo rs rm => .arm (put 32 c.bits (put 28 0b0000111#7 (put 21 (BitVec.ofBool sf) (put 20 rdHi (put 16 rdLo (put 12 rs (put 8 0b1001#4 rm)))))))
  | .smlaXY c rd rn rs y x rm => .arm (put 32 c.bits (put 28 0b00010000#8 (put 20 rd (put 16 rn (put 12 rs (put 8 0b1#1 (put 7 (BitVec.ofBool y) (put 6 (BitVec.ofBool x) (put 5 0b0#1 rm)))))))))
  | .smlawY c rd rn rs y rm => .arm (put 32 c.bits (put 28 0b00010010#8 (put 20 rd (put 16 rn (put 12 rs (put 8 0b1#1 (put 7 (BitVec.ofBool y) (put 6 0b00#2 rm))))))))
  | .smulwY c rd z rs y rm => .arm (put 32 c.bits (put 28 0b00010010#8 (put 20 rd (put 16 z (put 12 rs (put 8 0b1#1 (put 7 (BitVec.ofBool y) (put 6 0b10#2 rm))))))))
  | .smlalXY c rdHi rdLo rs y x rm => .arm (put 32 c.bits (put 28 0b00010100#8 (put 20 rdHi (put 16 rdLo (put 12 rs (put 8 0b1#1 (put 7 (BitVec.ofBool y) (put 6 (BitVec.ofBool x) (put 5 0b0#1 rm)))))))))
  | .smulXY c rd z rs y x rm => .arm (put 32 c.bits (put 28 0b00010110#8 (put 20 rd (put 16 z (put 12 rs (put 8 0b1#1 (put 7 (BitVec.ofBool y) (put 6 (BitVec.ofBool x) (put 5 0b0#1 rm)))))))))
  | .qadd c rn rd z rm => .arm (put 32 c.bits (put 28 0b00010000#8 (put 20 rn (put 16 rd (put 12 z (put 8 0b0101#4 rm))))))
  | .qsub c rn rd z rm => .arm (put 32 c.bits (put 28 0b00010010#8 (put 20 rn (put 16 rd (put 12 z (put 8 0b0101#4 rm))))))
  | .qdadd c rn rd z rm => .arm (put 32 c.bits (put 28 0b00010100#8 (put 20 rn (put 16 rd (put 12 z (put 8 0b0101#4 rm))))))
  | .qdsub c rn rd z rm => .arm (put 32 c.bits (put 28 0b00010110#8 (put 20 rn (put 16 rd (put 12 z (put 8 0b0101#4 rm))))))
  | .b c off => .arm (put 32 c.bits (put 28 0b1010#4 off))
  | .bl c off => .arm (put 32 c.bits (put 28 0b1011#4 off))
  | .blxImm h off => .arm (put 32 0b1111101#7 (put 25 (BitVec.ofBool h) off))
  | .bx c o rm => .arm (put 32 c.bits (put 28 0b00010010#8 (put 20 o (put 8 0b0001#4 rm))))
  | .blxReg c o rm => .arm (put 32 c.bits (put 28 0b00010010#8 (put 20 o (put 8 0b0011#4 rm))))
  | .mrs c r o rd z1 z2 => .arm (put 32 c.bits (put 28 0b00010#5 (put 23 (BitVec.ofBool r) (put 22 0b00#2 (put 20 o (put 16 rd (put 12 z1 (put 8 0b0000#4 z2))))))))
  | .msrReg c r fm o z rm => .arm (put 32 c.bits (put 28 0b00010#5 (put 23 (BitVec.ofBool r) (put 22 0b10#2 (put 20 fm (put 16 o (put 12 z (put 8 0b0000#4 rm))))))))
  | .msrImm c r fm o rot imm => .arm (put 32 c.bits (put 28 0b00110#5 (put 23 (BitVec.ofBool r) (put 22 0b10#2 (put 20 fm (put 16 o (put 12 rot imm)))))))
  | .swi c imm => .arm (put 32 c.bits (put 28 0b1111#4 imm))
  | .bkpt immHi immLo => .arm (put 32 0b111000010010#12 (put 20 immHi (put 8 0b0111#4 immLo)))
  | .ldrImm c p u w rn rd off => .arm (put 32 c.bits (put 28 0b010#3 (put 25 (BitVec.ofBool p) (put 24 (BitVec.ofBool u) (put 23 0b0#1 (put 22 (BitVec.ofBool w) (put 21 0b1#1 (put 20 rn (put 16 rd off)))))))))
  | .ldrReg c p u w rn rd sa sh rm => .arm (put 32 c.bits (put 28 0b011#3 (put 25 (BitVec.ofBool p) (put 24 (BitVec.ofBool u) (put 23 0b0#1 (put 22 (BitVec.ofBool w) (put 21 0b1#1 (put 20 rn (put 16 rd (put 12 sa (put 7 sh.bits (put 5 0b0#1 rm))))))))))))
  | .strImm c p u w rn rd off => .arm (put 32 c.bits (put 28 0b010#3 (put 25 (BitVec.ofBool p) (put 24 (BitVec.ofBool u) (put 23 0b0#1 (put 22 (BitVec.ofBool w) (put 21 0b0#1 (put 20 rn (put 16 rd off)))))))))
  | .strReg c p u w rn rd sa sh rm => .arm (put 32 c.bits (put 28 0b011#3 (put 25 (BitVec.ofBool p) (put 24 (BitVec.ofBool u) (put 23 0b0#1 (put 22 (BitVec.ofBool w) (put 21 0b0#1 (put 20 rn (put 16 rd (put 12 sa (put 7 sh.bits (put 5 0b0#1 rm))))))))))))
  | .ldrbImm c p u w rn rd off => .arm (put 32 c.bits (put 28 0b010#3 (put 25 (BitVec.ofBool p) (put 24 (BitVec.ofBool u) (put 23 0b1#1 (put 22 (BitVec.ofBool w) (put 21 0b1#1 (put 20 rn (put 16 rd off)))))))))
  | .ldrbReg c p u w rn rd sa sh rm => .arm (put 32 c.bits (put 28 0b011#3 (put 25 (BitVec.ofBool p) (put 24 (BitVec.ofBool u) (put 23 0b1#1 (put 22 (BitVec.ofBool w) (put 21 0b1#1 (put 20 rn (put 16 rd (put 12 sa (put 7 sh.bits (put 5 0b0#1 rm))))))))))))
  | .strbImm c p u w rn rd off => .arm (put 32 c.bits (put 28 0b010#3 (put 25 (BitVec.ofBool p) (put 24 (BitVec.ofBool u) (put 23 0b1#1 (put 22 (BitVec.ofBool w) (put 21 0b0#1 (put 20 rn (put 16 rd off)))))))))
  | .strbReg c p u w rn rd sa sh rm => .arm (put 32 c.bits (put 28 0b011#3 (put 25 (BitVec.ofBool p) (put 24 (BitVec.ofBool u) (put 23 0b1#1 (put 22 (BitVec.ofBool w) (put 21 0b0#1 (put 20 rn (put 16 rd (put 12 sa (put 7 sh.bits (put 5 0b0#1 rm))))))))))))
  | .ldrtImm c u rn rd off => .arm (put 32 c.bits (put 28 0b0100#4 (put 24 (BitVec.ofBool u) (put 23 0b011#3 (put 20 rn (put 16 rd off))))))
  | .ldrtReg c u rn rd sa sh rm => .arm (put 32 c.bits (put 28 0b0110#4 (put 24 (BitVec.ofBool u) (put 23 0b011#3 (put 20 rn (put 16 rd (put 12 sa (put 7 sh.bits (put 5 0b0#1 rm)))))))))
  | .strtImm c u rn rd off => .arm (put 32 c.bits (put 28 0b0100#4 (put 24 (BitVec.ofBool u) (put 23 0b010#3 (put 20 rn (put 16 rd off))))))
  | .strtReg c u rn rd sa sh rm => .arm (put 32 c.bits (put 28 0b0110#4 (put 24 (BitVec.ofBool u) (put 23 0b010#3 (put 20 rn (put 16 rd (put 12 sa (put 7 sh.bits (put 5 0b0#1 rm)))))))))
  | .ldrbtImm c u rn rd off => .arm (put 32 c.bits (put 28 0b0100#4 (put 24 (BitVec.ofBool u) (put 23 0b111#3 (put 20 rn (put 16 rd off))))))
  | .ldrbtReg c u rn rd sa sh rm => .arm (put 32 c.bits (put 28 0b0110#4 (put 24 (BitVec.ofBool u) (put 23 0b111#3 (put 20 rn (put 16 rd (put 12 sa (put 7 sh.bits (put 5 0b0#1 rm)))))))))
  | .strbtImm c u rn rd off => .arm (put 32 c.bits (put 28 0b0100#4 (put 24 (BitVec.ofBool u) (put 23 0b110#3 (put 20 rn (put 16 rd off))))))
  | .strbtReg c u rn rd sa sh rm => .arm (put 32 c.bits (put 28 0b0110#4 (put 24 (BitVec.ofBool u) (put 23 0b110#3 (put 20 rn (put 16 rd (put 12 sa (put 7 sh.bits (put 5 0b0#1 rm)))))))))
  | .ldrhImm c p u w rn rd immH immL => .arm (put 32 c.bits (put 28 0b000#3 (put 25 (BitVec.ofBool p) (put 24 (BitVec.ofBool u) (put 23 0b1#1 (put 22 (BitVec.ofBool w) (put 21 0b1#1 (put 20 rn (put 16 rd (put 12 immH (put 8 0b1011#4 immL)))))))))))
  | .ldrhReg c p u w rn rd z rm => .arm (put 32 c.bits (put 28 0b000#3 (put 25 (BitVec.ofBool p) (put 24 (BitVec.ofBool u) (put 23 0b0#1 (put 22 (BitVec.ofBool w) (put 21 0b1#1 (put 20 rn (put 16 rd (put 12 z (put 8 0b1011#4 rm)))))))))))
  | .strhImm c p u w rn rd immH immL => .arm (put 32 c.bits (put 28 0b000#3 (put 25 (BitVec.ofBool p) (put 24 (BitVec.ofBool u) (put 23 0b1#1 (put 22 (BitVec.ofBool w) (put 21 0b0#1 (put 20 rn (put 16 rd (put 12 immH (put 8 0b1011#4 immL)))))))))))
  | .strhReg c p u w rn rd z rm => .arm (put 32 c.bits (put 28 0b000#3 (put 25 (BitVec.ofBool p) (put 24 (BitVec.ofBool u) (put 23 0b0#1 (put 22 (BitVec.ofBool w) (put 21 0b0#1 (put 20 rn (put 16 rd (put 12 z (put 8 0b1011#4 rm)))))))))))
  | .ldrsbImm c p u w rn rd immH immL => .arm (put 32 c.bits (put 28 0b000#3 (put 25 (BitVec.ofBool p) (put 24 (BitVec.ofBool u) (put 23 0b1#1 (put 22 (BitVec.ofBool w) (put 21 0b1#1 (put 20 rn (put 16 rd (put 12 immH (put 8 0b1101#4 immL)))))))))))
  | .ldrsbReg c p u w rn rd z rm => .arm (put 32 c.bits (put 28 0b000#3 (put 25 (BitVec.ofBool p) (put 24 (BitVec.ofBool u) (put 23 0b0#1 (put 22 (BitVec.ofBool w) (put 21 0b1#1 (put 20 rn (put 16 rd (put 12 z (put 8 0b1101#4 rm)))))))))))
  | .ldrshImm c p u w rn rd immH immL => .arm (put 32 c.bits (put 28 0b000#3 (put 25 (BitVec.ofBool p) (put 24 (BitVec.ofBool u) (put 23 0b1#1 (put 22 (BitVec.ofBool w) (put 21 0b1#1 (put 20 rn (put 16 rd (put 12 immH (put 8 0b1111#4 immL)))))))))))
  | .ldrshReg c p u w rn rd z rm => .arm (put 32 c.bits (put 28 0b000#3 (put 25 (BitVec.ofBool p) (put 24 (BitVec.ofBool u) (put 23 0b0#1 (put 22 (BitVec.ofBool w) (put 21 0b1#1 (put 20 rn (put 16 rd (put 12 z (put 8 0b1111#4 rm)))))))))))
  | .ldrdImm c p u w rn rd immH immL => .arm (put 32 c.bits (put 28 0b000#3 (put 25 (BitVec.ofBool p) (put 24 (BitVec.ofBool u) (put 23 0b1#1 (put 22 (BitVec.ofBool w) (put 21 0b0#1 (put 20 rn (put 16 rd (put 12 immH (put 8 0b1101#4 immL)))))))))))
  | .ldrdReg c p u w rn rd z rm => .arm (put 32 c.bits (put 28 0b000#3 (put 25 (BitVec.ofBool p) (put 24 (BitVec.ofBool u) (put 23 0b0#1 (put 22 (BitVec.ofBool w) (put 21 0b0#1 (put 20 rn (put 16 rd (put 12 z (put 8 0b1101#4 rm)))))))))))
  | .strdImm c p u w rn rd immH immL => .arm (put 32 c.bits (put 28 0b000#3 (put 25 (BitVec.ofBool p) (put 24 (BitVec.ofBool u) (put 23 0b1#1 (put 22 (BitVec.ofBool w) (put 21 0b0#1 (put 20 rn (put 16 rd (put 12 immH (put 8 0b1111#4 immL)))))))))))
  | .strdReg c p u w rn rd z rm => .arm (put 32 c.bits (put 28 0b000#3 (put 25 (BitVec.ofBool p) (put 24 (BitVec.ofBool u) (put 23 0b0#1 (put 22 (BitVec.ofBool w) (put 21 0b0#1 (put 20 rn (put 16 rd (put 12 z (put 8 0b1111#4 rm)))))))))))
  | .pldImm u rn off => .arm (put 32 0b11110101#8 (put 24 (BitVec.ofBool u) (put 23 0b101#3 (put 20 rn (put 16 0b1111#4 off)))))
  | .pldReg u rn sa sh rm => .arm (put 32 0b11110111#8 (put 24 (BitVec.ofBool u) (put 23 0b101#3 (put 20 rn (put 16 0b1111#4 (put 12 sa (put 7 sh.bits (put 5 0b0#1 rm))))))))
  | .ldm1 c p u w rn list => .arm (put 32 c.bits (put 28 0b100#3 (put 25 (BitVec.ofBool p) (put 24 (BitVec.ofBool u) (put 23 0b0#1 (put 22 (BitVec.ofBool w) (put 21 0b1#1 (put 20 rn list))))))))
  | .ldm2 c p u z rn list => .arm (put 32 c.bits (put 28 0b100#3 (put 25 (BitVec.ofBool p) (put 24 (BitVec.ofBool u) (put 23 0b1#1 (put 22 z (put 21 0b1#1 (put 20 rn (put 16 0b0#1 list)))))))))
  | .ldm3 c p u w rn list => .arm (put 32 c.bits (put 28 0b100#3 (put 25 (BitVec.ofBool p) (put 24 (BitVec.ofBool u) (put 23 0b1#1 (put 22 (BitVec.ofBool w) (put 21 0b1#1 (put 20 rn (put 16 0b1#1 list)))))))))
  | .stm1 c p u w rn list => .arm (put 32 c.bits (put 28 0b100#3 (put 25 (BitVec.ofBool p) (put 24 (BitVec.ofBool u) (put 23 0b0#1 (put 22 (BitVec.ofBool w) (put 21 0b0#1 (put 20 rn list))))))))
  | .stm2 c p u z rn list => .arm (put 32 c.bits (put 28 0b100#3 (put 25 (BitVec.ofBool p) (put 24 (BitVec.ofBool u) (put 23 0b1#1 (put 22 z (put 21 0b0#1 (put 20 rn list))))))))
  | .swp c rn rd z rm => .arm (put 32 c.bits (put 28 0b00010000#8 (put 20 rn (put 16 rd (put 12 z (put 8 0b1001#4 rm))))))
  | .swpb c rn rd z rm => .arm (put 32 c.bits (put 28 0b00010100#8 (put 20 rn (put 16 rd (put 12 z (put 8 0b1001#4 rm))))))
  | .cdp c op1 crn crd cp op2 crm => .arm (put 32 c.bits (put 28 0b1110#4 (put 24 op1 (put 20 crn (put 16 crd (put 12 cp (put 8 op2 (put 5 0b0#1 crm))))))))
  | .ldc c p u n w rn crd cp off => .arm (put 32 c.bits (put 28 0b110#3 (put 25 (BitVec.ofBool p) (put 24 (BitVec.ofBool u) (put 23 (BitVec.ofBool n) (put 22 (BitVec.ofBool w) (put 21 0b1#1 (put 20 rn (put 16 crd (put 12 cp off))))))))))
  | .stc c p u n w rn crd cp off => .arm (put 32 c.bits (put 28 0b110#3 (put 25 (BitVec.ofBool p) (put 24 (BitVec.ofBool u) (put 23 (BitVec.ofBool n) (put 22 (BitVec.ofBool w) (put 21 0b0#1 (put 20 rn (put 16 crd (put 12 cp off))))))))))
  | .mcr c op1 crn rd cp op2 crm => .arm (put 32 c.bits (put 28 0b1110#4 (put 24 op1 (put 21 0b0#1 (put 20 crn (put 16 rd (put 12 cp (put 8 op2 (put 5 0b1#1 crm)))))))))
  | .mrc c op1 crn rd cp op2 crm => .arm (put 32 c.bits (put 28 0b1110#4 (put 24 op1 (put 21 0b1#1 (put 20 crn (put 16 rd (put 12 cp (put 8 op2 (put 5 0b1#1 crm)))))))))
  | .mcrr c rn rd cp op1 crm => .arm (put 32 c.bits (put 28 0b11000100#8 (put 20 rn (put 16 rd (put 12 cp (put 8 op1 crm))))))
  | .mrrc c rn rd cp op1 crm => .arm (put 32 c.bits (put 28 0b11000101#8 (put 20 rn (put 16 rd (put 12 cp (put 8 op1 crm))))))
  | .cdp2 op1 crn crd cp op2 crm => .arm (put 32 0b11111110#8 (put 24 op1 (put 20 crn (put 16 crd (put 12 cp (put 8 op2 (put 5 0b0#1 crm)))))))
  | .ldc2 p u n w rn crd cp off => .arm (put 32 0b1111110#7 (put 25 (BitVec.ofBool p) (put 24 (BitVec.ofBool u) (put 23 (BitVec.ofBool n) (put 22 (BitVec.ofBool w) (put 21 0b1#1 (put 20 rn (put 16 crd (put 12 cp off)))))))))
  | .stc2 p u n w rn crd cp off => .arm (put 32 0b1111110#7 (put 25 (BitVec.ofBool p) (put 24 (BitVec.ofBool u) (put 23 (BitVec.ofBool n) (put 22 (BitVec.ofBool w) (put 21 0b0#1 (put 20 rn (put 16 crd (put 12 cp off)))))))))
  | .mcr2 op1 crn rd cp op2 crm => .arm (put 32 0b11111110#8 (put 24 op1 (put 21 0b0#1 (put 20 crn (put 16 rd (put 12 cp (put 8 op2 (put 5 0b1#1 crm))))))))
  | .mrc2 op1 crn rd cp op2 crm => .arm (put 32 0b11111110#8 (put 24 op1 (put 21 0b1#1 (put 20 crn (put 16 rd (put 12 cp (put 8 op2 (put 5 0b1#1 crm))))))))
  | .mcr15 c op1 crn rd op2 crm => .arm (put 32 c.bits (put 28 0b1110#4 (put 24 op1 (put 21 0b0#1 (put 20 crn (put 16 rd (put 12 0b1111#4 (put 8 op2 (put 5 0b1#1 crm)))))))))
  | .mrc15 c op1 crn rd op2 crm => .arm (put 32 c.bits (put 28 0b1110#4 (put 24 op1 (put 21 0b1#1 (put 20 crn (put 16 rd (put 12 0b1111#4 (put 8 op2 (put 5 0b1#1 crm)))))))))
  | .mcr14 c op1 crn rd op2 crm => .arm (put 32 c.bits (put 28 0b1110#4 (put 24 op1 (put 21 0b0#1 (put 20 crn (put 16 rd (put 12 0b1110#4 (put 8 op2 (put 5 0b1#1 crm)))))))))
  | .mrc14 c op1 crn rd op2 crm => .arm (put 32 c.bits (put 28 0b1110#4 (put 24 op1 (put 21 0b1#1 (put 20 crn (put 16 rd (put 12 0b1110#4 (put 8 op2 (put 5 0b1#1 crm)))))))))
  | .undefMedia c ig1 ig2 => .arm (put 32 c.bits (put 28 0b011#3 (put 25 ig1 (put 5 0b1#1 ig2))))
  | .undefMisc c ig1 ig2 => .arm (put 32 c.bits (put 28 0b00110#5 (put 23 ig1 (put 22 0b00#2 ig2))))
  | .tLslImm imm rm rd => .thumb (put 16 0b00000#5 (put 11 imm (put 6 rm rd)))
  | .tLsrImm imm rm rd => .thumb (put 16 0b00001#5 (put 11 imm (put 6 rm rd)))
  | .tAsrImm imm rm rd => .thumb (put 16 0b00010#5 (put 11 imm (put 6 rm rd)))
  | .tAddReg rm rn rd => .thumb (put 16 0b0001100#7 (put 9 rm (put 6 rn rd)))
  | .tSubReg rm rn rd => .thumb (put 16 0b0001101#7 (put 9 rm (put 6 rn rd)))
  | .tAddImm3 imm rn rd => .thumb (put 16 0b0001110#7 (put 9 imm (put 6 rn rd)))
  | .tSubImm3 imm rn rd => .thumb (put 16 0b0001111#7 (put 9 imm (put 6 rn rd)))
  | .tMovImm rd imm => .thumb (put 16 0b00100#5 (put 11 rd imm))
  | .tCmpImm rn imm => .thumb (put 16 0b00101#5 (put 11 rn imm))
  | .tAddImm8 rd imm => .thumb (put 16 0b00110#5 (put 11 rd imm))
  | .tSubImm8 rd imm => .thumb (put 16 0b00111#5 (put 11 rd imm))
  | .tAnd rm rd => .thumb (put 16 0b0100000000#10 (put 6 rm rd))
  | .tEor rm rd => .thumb (put 16 0b0100000001#10 (put 6 rm rd))
  | .tLslReg rs rd => .thumb (put 16 0b0100000010#10 (put 6 rs rd))
  | .tLsrReg rs rd => .thumb (put 16 0b0100000011#10 (put 6 rs rd))
  | .tAsrReg rs rd => .thumb (put 16 0b0100000100#10 (put 6 rs rd))
  | .tAdc rm rd => .thumb (put 16 0b0100000101#10 (put 6 rm rd))
  | .tSbc rm rd => .thumb (put 16 0b0100000110#10 (put 6 rm rd))
  | .tRor rs rd => .thumb (put 16 0b0100000111#10 (put 6 rs rd))
  | .tTst rm rn => .thumb (put 16 0b0100001000#10 (put 6 rm rn))
  | .tNeg rm rd => .thumb (put 16 0b0100001001#10 (put 6 rm rd))
  | .tCmpReg rm rn => .thumb (put 16 0b0100001010#10 (put 6 rm rn))
  | .tCmn rm rn => .thumb (put 16 0b0100001011#10 (put 6 rm rn))
  | .tOrr rm rd => .thumb (put 16 0b0100001100#10 (put 6 rm rd))
  | .tMul rm rd => .thumb (put 16 0b0100001101#10 (put 6 rm rd))
  | .tBic rm rd => .thumb (put 16 0b0100001110#10 (put 6 rm rd))
  | .tMvn rm rd => .thumb (put 16 0b0100001111#10 (put 6 rm rd))
  | .tAddHi h1 h2 rm rd => .thumb (put 16 0b01000100#8 (put 8 (BitVec.ofBool h1) (put 7 (BitVec.ofBool h2) (put 6 rm rd))))
  | .tCmpHi h1 h2 rm rn => .thumb (put 16 0b01000101#8 (put 8 (BitVec.ofBool h1) (put 7 (BitVec.ofBool h2) (put 6 rm rn))))
  | .tMovHi h1 h2 rm rd => .thumb (put 16 0b01000110#8 (put 8 (BitVec.ofBool h1) (put 7 (BitVec.ofBool h2) (put 6 rm rd))))
  | .tAddPc rd imm => .thumb (put 16 0b10100#5 (put 11 rd imm))
  | .tAddSp rd imm => .thumb (put 16 0b10101#5 (put 11 rd imm))
  | .tIncSp imm => .thumb (put 16 0b101100000#9 imm)
  | .tDecSp imm => .thumb (put 16 0b101100001#9 imm)
  | .tBx h2 rm z => .thumb (put 16 0b010001110#9 (put 7 (BitVec.ofBool h2) (put 6 rm z)))
  | .tBlxReg h2 rm z => .thumb (put 16 0b010001111#9 (put 7 (BitVec.ofBool h2) (put 6 rm z)))
  | .tLdrPc rd imm => .thumb (put 16 0b01001#5 (put 11 rd imm))
  | .tStrReg rm rn rd => .thumb (put 16 0b0101000#7 (put 9 rm (put 6 rn rd)))
  | .tStrhReg rm rn rd => .thumb (put 16 0b0101001#7 (put 9 rm (put 6 rn rd)))
  | .tStrbReg rm rn rd => .thumb (put 16 0b0101010#7 (put 9 rm (put 6 rn rd)))
  | .tLdrsb rm rn rd => .thumb (put 16 0b0101011#7 (put 9 rm (put 6 rn rd)))
  | .tLdrReg rm rn rd => .thumb (put 16 0b0101100#7 (put 9 rm (put 6 rn rd)))
  | .tLdrhReg rm rn rd => .thumb (put 16 0b0101101#7 (put 9 rm (put 6 rn rd)))
  | .tLdrbReg rm rn rd => .thumb (put 16 0b0101110#7 (put 9 rm (put 6 rn rd)))
  | .tLdrsh rm rn rd => .thumb (put 16 0b0101111#7 (put 9 rm (put 6 rn rd)))
  | .tStrImm imm rn rd => .thumb (put 16 0b01100#5 (put 11 imm (put 6 rn rd)))
  | .tLdrImm imm rn rd => .thumb (put 16 0b01101#5 (put 11 imm (put 6 rn rd)))
  | .tStrbImm imm rn rd => .thumb (put 16 0b01110#5 (put 11 imm (put 6 rn rd)))
  | .tLdrbImm imm rn rd => .thumb (put 16 0b01111#5 (put 11 imm (put 6 rn rd)))
  | .tStrhImm imm rn rd => .thumb (put 16 0b10000#5 (put 11 imm (put 6 rn rd)))
  | .tLdrhImm imm rn rd => .thumb (put 16 0b10001#5 (put 11 imm (put 6 rn rd)))
  | .tStrSp rd imm => .thumb (put 16 0b10010#5 (put 11 rd imm))
  | .tLdrSp rd imm => .thumb (put 16 0b10011#5 (put 11 rd imm))
  | .tPush r list => .thumb (put 16 0b1011010#7 (put 9 (BitVec.ofBool r) list))
  | .tPop r list => .thumb (put 16 0b1011110#7 (put 9 (BitVec.ofBool r) list))
  | .tBkpt imm => .thumb (put 16 0b10111110#8 imm)
  | .tStmia rn list => .thumb (put 16 0b11000#5 (put 11 rn list))
  | .tLdmia rn list => .thumb (put 16 0b11001#5 (put 11 rn list))
  | .tBCond c off => .thumb (put 16 0b1101#4 (put 12 c.bits off))
  | .tUndef ig => .thumb (put 16 0b11011110#8 ig)
  | .tSwi imm => .thumb (put 16 0b11011111#8 imm)
  | .tB off => .thumb (put 16 0b11100#5 off)
  | .tBlxSuffix off => .thumb (put 16 0b11101#5 (put 11 off 0b0#1))
  | .tBlPrefix off => .thumb (put 16 0b11110#5 off)
  | .tBlSuffix off => .thumb (put 16 0b11111#5 off)

end Sys2Proof
end

