-- ==== Sys2Proof/Machine/Bits.lean ====
section
/-! DEFINITION. Bit fields, byte order inside a word, register lists, and the arithmetic helper functions of R17 and R22. -/

namespace Sys2Proof.Machine

/-! ### Bits and bytes -/

/-- A `Bool` as the carry-in or a one-bit value. -/
def bitNat (b : Bool) : Nat := if b then 1 else 0

/-- Byte `i` of a word, byte 0 the least significant. -/
def byteAt (w : Word) (i : Nat) : Byte := w.extractLsb' (8 * i) 8

/-- The word whose four bytes are given, the first the least significant. -/
def wordOf (b0 b1 b2 b3 : Byte) : Word := b3 ++ b2 ++ b1 ++ b0

/-- The halfword of a word at bits [15:0] or, if `top`, at bits [31:16]. -/
def halfAt (w : Word) (top : Bool) : Half := if top then w.extractLsb' 16 16 else w.extractLsb' 0 16

/-- `half(v, x)` of R307: a half of a register as a signed integer. -/
def signedHalf (v : Word) (top : Bool) : Int := (halfAt v top).toInt

/-- `x ROR n` on 32-bit values (R17). -/
def ror (x : Word) (n : Nat) : Word := x.rotateRight n

/-- `x` with its `k` low bits 0, for `k` = 1 or 2: `x AND NOT (2^k - 1)`. -/
def clearLow (k : Nat) (x : Word) : Word := x &&& ~~~(BitVec.ofNat 32 (2 ^ k - 1))

/-- A 64-bit value from its two halves. -/
def pair64 (hi lo : Word) : BitVec 64 := hi ++ lo
/-- Bits [63:32] of a 64-bit value. -/
def hiWord (r : BitVec 64) : Word := r.extractLsb' 32 32
/-- Bits [31:0] of a 64-bit value. -/
def loWord (r : BitVec 64) : Word := r.extractLsb' 0 32

/-! ### Register lists -/

/-- The sixteen register numbers, ascending. -/
def allRegs : List Reg := [0, 1, 2, 3, 4, 5, 6, 7, 8, 9, 10, 11, 12, 13, 14, 15]

/-- The registers of a register list, ascending (R184: bit i set means r i is transferred). -/
def listed (l : BitVec 16) : List Reg := allRegs.filter fun r => l.getLsbD r.toNat

/-- The lowest register of a list is `r` (R386). -/
def isLowest (l : BitVec 16) (r : Reg) : Bool := (listed l).head? == some r

/-! ### Arithmetic (R22) -/

/-- The result, carry and overflow of `AddWithCarry` (R22). -/
structure Sum where
  value : Word
  carry : Bool
  overflow : Bool
deriving DecidableEq, Repr

/-- `AddWithCarry(x, y, c)` (R22): the exact unsigned and signed sums, then narrowed. -/
def addWithCarry (x y : Word) (c : Bool) : Sum where
  value := BitVec.ofNat 32 (x.toNat + y.toNat + bitNat c)
  carry := decide (2 ^ 32 ≤ x.toNat + y.toNat + bitNat c)
  overflow := decide (x.toInt + y.toInt + (bitNat c : Int) < -2 ^ 31 ∨ 2 ^ 31 ≤ x.toInt + y.toInt + (bitNat c : Int))

/-- `SignedSat32(i)` (R22): the saturated value and whether it saturated. -/
def signedSat32 (i : Int) : Word × Bool :=
  if 2 ^ 31 - 1 < i then (0x7FFFFFFF, true)
  else if i < -2 ^ 31 then (0x80000000, true)
  else (BitVec.ofInt 32 i, false)

/-- How many leading bits of the low `n` bits of `x` are 0 (R294): the bits n-1 down to 0 are looked at in turn. -/
def leadingZeros (x : Word) : Nat → Nat
  | 0 => 0
  | n + 1 => if x.getLsbD n then 0 else leadingZeros x n + 1

/-- The result of CLZ (R294): 32 for 0. -/
def countLeadingZeros (x : Word) : Word := BitVec.ofNat 32 (leadingZeros x 32)

end Sys2Proof.Machine
end

