-- ==== Sys2Proof/Config.lean ====
section
/-! DEFINITION. What the implementer of the chip or its pins fix (R11, spec/92 part 2), and the free values: the values
the spec leaves open after an instruction or an event that has a defined effect (spec/93, treatment "any value"). A free
value is an opaque constant, so that nothing can be proved of it. -/

namespace Sys2Proof

/-- The OPEN parameters of R11 and spec/92 part 2, constant for a run (R625, U17). `fullDebug` is DEBUG_CONFIG = full;
`etm` is ETM_PRESENT; `idMinor` is DEVICE_ID_MINOR = 1 (C6); `tcmErrors` is TCM_ERROR_SUPPORT (R143); `storedPc12` is
STORED_PC_OFFSET = 12, else 8 (R356). TAPID and CLK_HCLK_RATIO are not program visible and have no field. -/
structure Params where
  itcmSize : BitVec 5
  dtcmSize : BitVec 5
  vinithi : Bool
  initram : Bool
  fullDebug : Bool
  dbgen : Bool
  etm : Bool
  idMinor : Bool
  tcmErrors : Bool
  storedPc12 : Bool
deriving DecidableEq, Repr

/-- The parameter values the spec allows: size codes b00000 to b01101 (U18), and an ETM only in the full debug
configuration (R601). A step with others is refused (R11, U18). -/
def Params.legal (p : Params) : Bool :=
  p.itcmSize.toNat ≤ 13 && p.dtcmSize.toNat ≤ 13 && (!p.etm || p.fullDebug)

/-- The size in bytes of a size code: 0 for b00000, 2^(9+c) for another code c (R53, C7). -/
def tcmBytes (code : BitVec 5) : Nat := if code = 0 then 0 else 2 ^ (9 + code.toNat)

/-- The parameters of `State.reset`: a 16KB ITCM (the source's example, Figure 3-2) and a 16KB DTCM, low vectors, TCMs
disabled at reset, reduced debug configuration, DBGEN LOW, no ETM, no TCM error support, DEVICE_ID_MINOR = 1 (the default
of R52), STORED_PC_OFFSET = 12. DESIGN CHOICE, unsafe for a statement about the run from `State.reset` only: log 3. -/
def Params.atReset : Params where
  itcmSize := 5
  dtcmSize := 5
  vinithi := false
  initram := false
  fullDebug := false
  dbgen := false
  etm := false
  idMinor := true
  tcmErrors := false
  storedPc12 := true

namespace Config

/-- A free 32-bit value, applied to the counter `State.free` (log 5): U6, U9, U16, R351, R386. -/
opaque freeWord : Nat → Word
/-- A free choice between two outcomes, applied to the counter `State.free` (log 5): U5, U12, U21, U40, R271. -/
opaque freeBit : Nat → Bool
/-- The contents of AHB memory that nothing has written, one byte per address (log 1). -/
opaque ahbByte : Nat → Byte
/-- The power-on contents of the ITCM, one byte per offset, fixed once drawn (U19, log 1). -/
opaque itcmByte : Nat → Byte
/-- The power-on contents of the DTCM, one byte per offset, fixed once drawn (U19, log 1). -/
opaque dtcmByte : Nat → Byte
/-- Whether an ITCM word that holds a byte nothing has written reads with an error (R114, log 12). -/
opaque itcmError : Nat → Bool
/-- Whether a DTCM word that holds a byte nothing has written reads with an error (R114, log 12). -/
opaque dtcmError : Nat → Bool

end Config

end Sys2Proof
end

