-- ==== Sys2Proof/Machine/State.lean ====
section
/-! DEFINITION. The state of the ARM968E-S as plain data (spec/10_state.md), the reasons a step can stop, and the state
after reset (R90 to R93, R620, R621). -/

namespace Sys2Proof.Machine

/-! ### Status registers -/

/-- A program status register, CPSR or SPSR (R40): condition flags, sticky saturation flag Q (R42), interrupt disable
bits, Thumb bit, mode field. The reserved bits [26:8] are not storage: they read as 0 and ignore writes (R47). -/
structure Psr where
  n : Bool
  z : Bool
  c : Bool
  v : Bool
  q : Bool
  i : Bool
  f : Bool
  t : Bool
  m : BitVec 5
deriving DecidableEq, Repr

/-- The five exception modes that own an SPSR (R48). -/
inductive ExcMode where
  | fiq | irq | svc | abt | und
deriving DecidableEq, Repr

/-- The five saved program status registers (R30, R48). -/
structure Spsrs where
  fiq : Psr
  irq : Psr
  svc : Psr
  abt : Psr
  und : Psr
deriving DecidableEq, Repr

/-! ### General registers -/

/-- The thirty physical general registers other than the pc (R30), by the names of R30. -/
inductive PhysReg where
  | r0 | r1 | r2 | r3 | r4 | r5 | r6 | r7 | r8 | r9 | r10 | r11 | r12 | r13 | r14
  | r8_fiq | r9_fiq | r10_fiq | r11_fiq | r12_fiq | r13_fiq | r14_fiq
  | r13_svc | r14_svc | r13_abt | r14_abt | r13_irq | r14_irq | r13_und | r14_und
deriving DecidableEq, Repr

/-- The place of a physical register in the register file, in the order of `PhysReg`. -/
def PhysReg.idx : PhysReg → Fin 30
  | .r0 => 0 | .r1 => 1 | .r2 => 2 | .r3 => 3 | .r4 => 4 | .r5 => 5 | .r6 => 6 | .r7 => 7 | .r8 => 8 | .r9 => 9
  | .r10 => 10 | .r11 => 11 | .r12 => 12 | .r13 => 13 | .r14 => 14
  | .r8_fiq => 15 | .r9_fiq => 16 | .r10_fiq => 17 | .r11_fiq => 18 | .r12_fiq => 19 | .r13_fiq => 20 | .r14_fiq => 21
  | .r13_svc => 22 | .r14_svc => 23 | .r13_abt => 24 | .r14_abt => 25 | .r13_irq => 26 | .r14_irq => 27
  | .r13_und => 28 | .r14_und => 29

/-- The register file: one word for each `PhysReg`, at `PhysReg.idx` (R30). -/
abbrev Regs := Vector Word 30

/-! ### Coprocessor registers -/

/-- The writable bits of the CP15 c1 Control Register (R54). -/
structure Control where
  lt : Bool
  v : Bool
  i : Bool
  b : Bool
  w : Bool
  d : Bool
  a : Bool
deriving DecidableEq, Repr

/-- The writable bits of the CP15 c15 Configuration Control Register (R60): ITCM order, DTCM order, prefetch buffer
disable, FIQ mask, IRQ mask. -/
structure ConfigCtl where
  i : Bool
  d : Bool
  b : Bool
  fm : Bool
  im : Bool
deriving DecidableEq, Repr

/-- The debug communications channel and the DbgAbt bit, CP14 (R61 to R64). -/
structure Dcc where
  r : Bool
  w : Bool
  readData : Word
  writeData : Word
  dbgAbt : Bool
deriving DecidableEq, Repr

/-- The debug logic (R65, R72, R600 to R606). `monitor` and `request` are bits 4 and 1 of the Debug Control Register,
`statusT` is bit 4 of the Debug Status Register, `halted` is debug state, `wptLatch` a watchpoint waiting for debug entry
(R604). `bkptMatch`, `wptMatch` and `takesBkpt` are the debugger's choices, inputs of the model: a breakpoint matches the
next instruction, for each of the data accesses to come whether a watchpoint matches it, a BKPT instruction enters debug state
(log 26, log 27). `pcView` is what the debugger sees as r15 in debug state (R604, log 45). -/
structure Debug where
  monitor : Bool
  request : Bool
  statusT : Bool
  halted : Bool
  wptLatch : Bool
  bkptMatch : Bool
  wptMatch : List Bool
  takesBkpt : Bool
  pcView : Word
deriving DecidableEq, Repr

/-! ### Memory, buffers, prefetch -/

/-- A byte store: (address, byte) pairs, addresses strictly rising. An address that is not listed has no value (nothing
has written it, log 1), so no entry can equal what an unlisted address reads as. -/
abbrev Memory := List Host.Cell

/-- The two tightly-coupled memories (R75). -/
inductive Tcm where
  | itcm | dtcm
deriving DecidableEq, Repr

/-- A pending store of a TCM write buffer (R68, R128): the lowest offset it covers after lane selection, its size in
bytes, and its data, least significant byte at that offset. -/
structure TcmEntry where
  off : Nat
  size : Nat
  data : Word
deriving DecidableEq, Repr

/-- A pending store of the AHB write buffer (R67, R121): its lowest byte address after lane selection, its size in
bytes, its data, whether it opens an address entry (the first word of a store instruction), and the privilege of the
access (R125). -/
structure AhbEntry where
  addr : Nat
  size : Nat
  data : Word
  first : Bool
  priv : Bool
deriving DecidableEq, Repr

/-- A word of the instruction prefetch buffer (R69): its word address, the word, the AHB error mark (R145) and the
external breakpoint mark (R147). -/
structure IpbEntry where
  addr : Word
  word : Word
  err : Bool
  bkpt : Bool
deriving DecidableEq, Repr

/-- What a fetch brings (R138): the instruction's bits (a Thumb halfword is zero-extended), its abort mark and its external
breakpoint mark. -/
structure Fetched where
  bits : Word
  err : Bool
  bkpt : Bool
deriving DecidableEq, Repr

/-- A word that the core's pipeline has fetched (R70, R135, R138, R140): its word address, the word, whether its low and its
high halfword have been written (R114; an AHB word always counts as written), its abort mark and its external breakpoint mark,
whether it came from the ITCM, whether the barrier of R162 has passed since, so that the next control transfer drops it, and
whether a control transfer has come since it was fetched (log 16). -/
structure PipeWord where
  addr : Word
  word : Word
  lo : Bool
  hi : Bool
  err : Bool
  bkpt : Bool
  itcm : Bool
  drained : Bool
  old : Bool
deriving DecidableEq, Repr

/-- What supplied the instruction fetches before a CP15 write (R652): the ITCM enable, the byte order, and, where the write
changed the prefetch buffer disable bit, what the prefetch buffer held; and the address of the instruction that follows the
write. -/
structure Route where
  i : Bool
  b : Bool
  ipb : Option (List IpbEntry)
  next : Word
deriving DecidableEq, Repr

/-- The kinds of AHB transfer of R125: what a slave can tell apart by HPROT, HLOCK and HWRITE. -/
inductive AhbKind where
  | fetch | read | write | buffered | swapRead | swapWrite
deriving DecidableEq, Repr

/-- A range of AHB addresses that answers the listed kinds of transfer with an error response (R142, R125), and only User
accesses if `userOnly` (R592). The environment's; log 10. -/
structure ErrRegion where
  base : Nat
  size : Nat
  kinds : List AhbKind
  userOnly : Bool
deriving DecidableEq, Repr

/-! ### Pins and the turns of the other agents -/

/-- The input pins that change while the machine runs (R76), each `true` when it requests: nFIQ LOW, nIRQ LOW, EDBGRQ
HIGH, FIFOFULL HIGH, DBGIEBKPT HIGH, DBGDEWPT HIGH, ETMEN HIGH (R611). -/
structure Pins where
  fiq : Bool
  irq : Bool
  edbgrq : Bool
  fifofull : Bool
  ibkpt : Bool
  dwpt : Bool
  etmen : Bool
deriving DecidableEq, Repr

/-- What the DMA master sees of its last read (R153, R154): HRDATAD and HRESPD. -/
structure DmaResp where
  data : Word
  err : Bool
deriving DecidableEq, Repr

/-- A turn of an agent that can also act between two accesses of one instruction (R141): the write buffers, the prefetch, the
DMA master, the environment. -/
inductive BusTurn where
  /-- The AHB write buffer drains one data word (R122). -/
  | drainAhb
  /-- A TCM write buffer drains its oldest entry (R128). -/
  | drainTcm (t : Tcm)
  /-- The instruction prefetch buffer reads its next word (R134). -/
  | prefetchAhb
  /-- The core's pipeline fetches the word of an address ahead of its execution (R70, R135). -/
  | fetchAhead (a : Word)
  /-- The pipeline drops the last word it has fetched from an address. -/
  | dropWord (a : Word)
  /-- The DMA master writes 1, 2 or 4 bytes (R150 to R153); `data` is the value, right aligned. -/
  | dmaWrite (addr : Word) (size : Nat) (data : Word)
  /-- The DMA master reads a word (R153, R154). -/
  | dmaRead (addr : Word)
  /-- The environment drives the input pins (R560). -/
  | setPins (p : Pins)
  /-- Another AHB master, or a device, changes a byte of AHB memory (R164). -/
  | ahbWrite (addr : Nat) (b : Byte)
  /-- The environment changes which AHB addresses answer with an error (R142). -/
  | setAhbErrors (l : List ErrRegion)
  /-- The error detection logic changes which words of a TCM are in error (R143). -/
  | setTcmErrors (t : Tcm) (l : List Nat)
deriving DecidableEq, Repr

/-- What the debugger can read (R600, R602, R65). -/
inductive DebugSource where
  /-- A general register, while halted. -/
  | reg (r : PhysReg)
  /-- r15 as the debugger sees it, while halted (R604). -/
  | pc
  /-- The CPSR, while halted. -/
  | cpsr
  /-- An SPSR, while halted. -/
  | spsr (e : ExcMode)
  /-- 1, 2 or 4 bytes of memory, as a load of the core, while halted. -/
  | mem (addr : Word) (size : Nat)
  /-- The Debug Control Register: bits 4 and 1. -/
  | control
  /-- The Debug Status Register: bit 4. -/
  | status
deriving DecidableEq, Repr

/-- One turn of an agent other than the core (R13), or of the core itself. `State.agenda` lists the turns before the
core's next one (log 4). -/
inductive Turn where
  /-- The core takes its turn although other turns are listed after it. -/
  | core
  /-- A write buffer, the prefetch, the DMA master or the environment acts. -/
  | bus (b : BusTurn)
  /-- HRESETn LOW then HIGH: a warm reset (R620, R622). -/
  | reset
  /-- HRESETn goes LOW inside the next instruction, which has made the first `k` of its stores (R541, R620, U12). -/
  | resetCut (k : Nat)
  /-- DBGnTRST: reset of the debug logic (R271, R622). -/
  | debugReset
  /-- The debugger takes the DCC message (R268 D1). -/
  | dccTake
  /-- The debugger sends a DCC message (R268 D2). -/
  | dccSend (v : Word)
  /-- The debugger writes bits 4 and 1 of the Debug Control Register, and chooses whether BKPT enters debug state (R65, R345). -/
  | debugControl (monitor request takesBkpt : Bool)
  /-- The watchpoint units will match the next instruction, and those of the next data accesses that `wpt` marks (R65, R603,
  R604). -/
  | debugMatch (bkpt : Bool) (wpt : List Bool)
  /-- The debugger reads (R14, R600). -/
  | debugRead (d : DebugSource)
  /-- While halted: the debugger writes a general register (R600). -/
  | debugReg (r : PhysReg) (v : Word)
  /-- While halted: the debugger writes the CPSR (R600). -/
  | debugCpsr (v : Word)
  /-- While halted: the debugger writes an SPSR (R600). -/
  | debugSpsr (e : ExcMode) (v : Word)
  /-- While halted: the debugger makes the core store 1, 2 or 4 bytes (R600). -/
  | debugStore (addr : Word) (size : Nat) (v : Word)
  /-- While halted: the debugger makes the core execute the instruction with these bits (R600). -/
  | debugExec (bits : Word)
  /-- While halted: the debugger reads or writes CP15 through chain 15; the 39 bits of the chain (R608, R248). -/
  | chain15 (w : BitVec 39)
  /-- While halted: the debugger restarts the core (R600, R602, R604), at an address of its own or, with `none`, at the pc: where an
  instruction that it scanned in has put it, else the next instruction to execute. -/
  | debugRestart (addr : Option Word)
deriving DecidableEq, Repr

/-! ### Stops -/

/-- Why a form, an operand or a situation is UNPREDICTABLE (R20, R220; spec/93). Each names one kind of case that the
spec's rules mark UNPREDICTABLE with treatment refuse. -/
inductive Unpred where
  /-- A Should Be Zero or Should Be One field of an instruction holds another value (R180, U2). -/
  | sbzSbo
  /-- r15 in a register field where the rule forbids it (R178, R300, U1). -/
  | pcOperand
  /-- Write-back to the base r15 (R182, U1). -/
  | pcBase
  /-- Write-back with the base also the transferred register (R182, U1). -/
  | baseIsDest
  /-- Write-back with the base also the offset register (R182, U1). -/
  | baseIsOffset
  /-- The destination equals Rm in a multiply (R301, R303, R454, U1). -/
  | destIsRm
  /-- RdHi equals RdLo (R303, U1). -/
  | hiIsLo
  /-- P = 0 and W = 1 in addressing mode 3 (R183). -/
  | postIndexedW
  /-- An odd or r14 first register of LDRD or STRD (R370, U4). -/
  | oddPair
  /-- The offset register of LDRD is a destination (R370, U1). -/
  | pairIsOffset
  /-- Rn equals Rm or Rd in a swap (R396, U1). -/
  | swapBase
  /-- An empty register list (R184, R500, U1). -/
  | emptyList
  /-- The base in the list of an LDM with write-back (R386, U1), or in the list of a Thumb STMIA and not lowest (R536(c), U1). -/
  | baseInList
  /-- W = 1 in LDM(2) or STM(2) (R389, R392, U1). -/
  | userListW
  /-- Both registers low in a Thumb high-register form (R428, R438, R441, U1). -/
  | bothLow
  /-- The SPSR, or the User bank forms of LDM and STM, in User or System mode (R48, R277, R338, R341, R389, U1). -/
  | noSpsr
  /-- An MSR that would set the T bit (R44, R341, U1). -/
  | msrSetsT
  /-- A CP15 or CP14 selector the spec does not list, or lists as not defined or Unpredictable (R56, R232, R261, U13, U14). -/
  | cpSelector
  /-- A Should Be Zero or Should Be One bit of a CP15 or CP14 register written with another value (R59, R236, R242, R266, U2). -/
  | cpReserved
  /-- MCR or MRC to CP14 in User mode (R260, U38). -/
  | cp14User
  /-- An unconditional coprocessor form that names CP14 or CP15 (R410, U11). -/
  | cpUncond
  /-- A TCM is disabled while its write buffer holds data (R132, U7). -/
  | tcmNotDrained
  /-- A misaligned halfword access with A = 0 (R118, U3). -/
  | misalignedHalf
  /-- A misaligned doubleword access with A = 0 (R118, R370, U4). -/
  | misalignedDouble
  /-- A load of the pc from a misaligned address with A = 0 (R118, R353, U3). -/
  | misalignedPcLoad
  /-- A misaligned Thumb word access with A = 0 (R480, U1). -/
  | misalignedThumb
  /-- The new pc is not aligned for the new state (R331, U25). -/
  | target
  /-- A banked register is used straight after LDM(2) or STM(2) (R656, U1). -/
  | bankedAfterUserList
  /-- What supplies an instruction was changed by a CP15 write, the two supplies differ, and the CP15 write is not followed by a
  control transfer (R652, U37). -/
  | staleRouting
  /-- An instruction is fetched from an ITCM word that nothing has written (R114, U8). -/
  | uninitItcm
  /-- A debug request, EDBGRQ HIGH or bit 1 of the Debug Control Register set, in monitor debug-mode (R605, U20). -/
  | requestInMonitor
  /-- An external breakpoint or watchpoint in monitor debug-mode (R147, R607, U22). -/
  | externalInMonitor
  /-- FIFOFULL HIGH with no ETM (R612, R671, U34). -/
  | fifofullNoEtm
  /-- ETMEN HIGH with no ETM, which is outside the model (R671). -/
  | etmenNoEtm
  /-- A TCM size code that is reserved, or an ETM in the reduced debug configuration (R11, R601, U18). -/
  | reservedParams
  /-- Monitor debug-mode is set while a halt-mode watchpoint is latched or the core is halted (R606, R607, U22). -/
  | mixedModes
  /-- A DMA turn of a size other than 1, 2 or 4 bytes, or of a DCC or halted-core turn the spec does not allow now (R153, R268). -/
  | badTurn
deriving DecidableEq, Repr

/-- Why the machine stops with a fault. -/
inductive Fault where
  /-- Raised by every access routed to a TCM of size 0 (R113, R151, U26): no such memory exists. Safe: the model stops
  where the spec gives no effect. -/
  | absentTcm (t : Tcm)
  /-- Raised by the core's turn when sequential execution has run past address 0xFFFFFFFF (R38, U42). Safe. -/
  | pcPastTop
deriving DecidableEq, Repr

/-- Why a step gives no meaning. -/
inductive Refusal where
  /-- An instruction the model gives no meaning yet, by its mnemonic. No arm uses it. Safe. -/
  | notModelled (mnemonic : String)
  /-- An ARM word that no row of the opcode table holds (R196, U33): the spec promises neither an effect nor the trap. Safe. -/
  | unallocatedArm (w : Word)
  /-- A Thumb halfword that no row of the opcode table holds (R207, U33). Safe. -/
  | unallocatedThumb (h : Half)
  /-- A case the spec calls UNPREDICTABLE and gives no effect (R20, R220, spec/93 treatment refuse). Safe. -/
  | unpredictable (why : Unpred)
deriving DecidableEq, Repr

/-! ### The state -/

/-- The whole machine (spec/10_state.md). INVENTORY.md lists each field with the rule that names it. -/
structure State where
  /-- The thirty general registers other than the pc (R30). -/
  regs : Regs
  /-- The address of the next instruction to execute, `InstrAddr` while it executes (R36). -/
  pc : Word
  /-- The current program status register (R40). -/
  cpsr : Psr
  /-- The saved program status registers (R48). -/
  spsrs : Spsrs
  /-- Set by an illegal mode value; the core then does nothing until Reset (R46). -/
  unrecoverable : Bool
  /-- CP15 c1 (R54). -/
  ctl : Control
  /-- CP15 c15 (R60). -/
  cfg : ConfigCtl
  /-- CP15 c13 Trace Process ID (R58). -/
  procId : Word
  /-- How many pulses ETMPROCIDWR has given (R58, log 40). -/
  procIdWrites : Nat
  /-- What ETMPROCID was driven to when ETMEN last went LOW (R611, log 40). -/
  etmHeld : Word
  /-- CP14 (R61). -/
  dcc : Dcc
  /-- The debug logic (R65, R72). -/
  dbg : Debug
  /-- Wait-for-interrupt state (R71). -/
  standby : Bool
  /-- The ITCM RAM by byte offset (R75). -/
  itcm : Memory
  /-- The DTCM RAM by byte offset (R75). -/
  dtcm : Memory
  /-- The memory behind the AHB master port by byte address (R75). -/
  ahb : Memory
  /-- The ITCM write buffer, oldest first (R68). -/
  itcmWB : List TcmEntry
  /-- The DTCM write buffer, oldest first (R68). -/
  dtcmWB : List TcmEntry
  /-- The AHB write buffer, oldest first (R67). -/
  ahbWB : List AhbEntry
  /-- The instruction prefetch buffer, lowest address first (R69). -/
  ipb : List IpbEntry
  /-- The address the prefetch buffer reads next, if it has one (R134). -/
  ipbNext : Option Word
  /-- The words the pipeline has fetched ahead, the last one first (R70). -/
  pipe : List PipeWord
  /-- The next fetch is nonsequential (R38, R134). -/
  nonseq : Bool
  /-- Sequential execution ran past 0xFFFFFFFF (R38, log 14). -/
  pastTop : Bool
  /-- The last instruction was LDM(2) or STM(2) (R656, log 18). -/
  bankHazard : Bool
  /-- The supplies of instructions that CP15 writes have replaced since the last control transfer (R652, log 17). -/
  oldRoutes : List Route
  /-- The mode in which the core runs although FIFOFULL is HIGH (R612, log 30). -/
  etmRun : Option (BitVec 5)
  /-- The input pins (R76). -/
  pins : Pins
  /-- The AHB addresses that answer with an error (R142, log 10). -/
  ahbErrors : List ErrRegion
  /-- The ITCM word offsets that read with an error (R143, log 12). -/
  itcmErrors : List Nat
  /-- The DTCM word offsets that read with an error (R143, log 12). -/
  dtcmErrors : List Nat
  /-- What the DMA master saw of its last read (R153, log 33). -/
  dmaOut : Option DmaResp
  /-- What the debugger's last read brought (R14, R600, R608, log 43). -/
  dbgOut : Option Word
  /-- The parameters and constant pins (R11). -/
  params : Params
  /-- The model's own counter: how many free values have been drawn (log 5). -/
  free : Nat
  /-- The model's own list of the turns before the core's next one (log 4). -/
  agenda : List Turn
  /-- The model's own list of the turns of other agents between the accesses of instructions of several accesses: each such
  place takes the first list (R141, log 35). -/
  inside : List (List BusTurn)
deriving DecidableEq, Repr

/-- A status register with every field zero: what `State.reset` gives the SPSRs. DESIGN CHOICE (the spec gives no reset
value), unsafe: log 2. -/
def Psr.zero : Psr where
  n := false
  z := false
  c := false
  v := false
  q := false
  i := false
  f := false
  t := false
  m := 0

/-- The CP15 Control Register after Reset (R54, R621). -/
def Control.reset (p : Params) : Control where
  lt := false
  v := p.vinithi
  i := p.initram
  b := false
  w := false
  d := p.initram
  a := false

/-- The CP15 Configuration Control Register after Reset: 0x00000004 (R60, R621). -/
def ConfigCtl.reset : ConfigCtl where
  i := false
  d := false
  b := false
  fm := true
  im := false

/-- The machine right after a power-on reset with the parameters `p` (R90, R620). The general registers, the SPSRs, the
flags, the DCC data, the debug control bits and the latched watchpoint condition (R72) have no reset value in the spec: they are
0 here, and no watchpoint is latched, DESIGN CHOICE, unsafe (log 2). The memories list nothing (log 1), the environment asserts
nothing (log 3), the agenda is empty (log 4). -/
def State.resetWith (p : Params) : State where
  regs := Vector.replicate 30 0
  pc := if p.vinithi then 0xFFFF0000 else 0
  cpsr := { Psr.zero with i := true, f := true, m := 0b10011 }
  spsrs := { fiq := Psr.zero, irq := Psr.zero, svc := Psr.zero, abt := Psr.zero, und := Psr.zero }
  unrecoverable := false
  ctl := Control.reset p
  cfg := ConfigCtl.reset
  procId := 0
  procIdWrites := 0
  etmHeld := 0
  dcc := { r := false, w := false, readData := 0, writeData := 0, dbgAbt := false }
  dbg := { monitor := false, request := false, statusT := false, halted := false, wptLatch := false,
           bkptMatch := false, wptMatch := [], takesBkpt := false, pcView := 0 }
  standby := false
  itcm := []
  dtcm := []
  ahb := []
  itcmWB := []
  dtcmWB := []
  ahbWB := []
  ipb := []
  ipbNext := none
  pipe := []
  nonseq := true
  pastTop := false
  bankHazard := false
  oldRoutes := []
  etmRun := none
  pins := { fiq := false, irq := false, edbgrq := false, fifofull := false, ibkpt := false, dwpt := false,
            etmen := false }
  ahbErrors := []
  itcmErrors := []
  dtcmErrors := []
  dmaOut := none
  dbgOut := none
  params := p
  free := 0
  agenda := []
  inside := []

/-- The machine right after reset, with the parameters of `Params.atReset` (log 3). -/
def State.reset : State := State.resetWith Params.atReset

/-- The form every byte store has: addresses strictly rising. -/
def Memory.wf (m : Memory) : Bool := decide (m.Pairwise fun a b => a.1 < b.1)

end Sys2Proof.Machine
end

