-- ==== Sys2Proof/Machine/Flags.lean ====
section
/-! DEFINITION. The condition field, every flag computation, the layout of a status register as a word, and which mode is
which (R40 to R48, R172, R276, R317, R421). -/

namespace Sys2Proof.Machine

/-! ### Modes (R45) -/

/-- User mode. -/
def modeUser : BitVec 5 := 0b10000
/-- FIQ mode. -/
def modeFiq : BitVec 5 := 0b10001
/-- IRQ mode. -/
def modeIrq : BitVec 5 := 0b10010
/-- Supervisor mode. -/
def modeSvc : BitVec 5 := 0b10011
/-- Abort mode. -/
def modeAbt : BitVec 5 := 0b10111
/-- Undefined mode. -/
def modeUnd : BitVec 5 := 0b11011
/-- System mode. -/
def modeSys : BitVec 5 := 0b11111

/-- The value of `CPSR.M` in an exception mode (R45). -/
def ExcMode.bits : ExcMode → BitVec 5
  | .fiq => modeFiq | .irq => modeIrq | .svc => modeSvc | .abt => modeAbt | .und => modeUnd

/-- The exception mode a mode value names; User, System and the illegal values name none (R48). -/
def excMode (m : BitVec 5) : Option ExcMode :=
  if m = modeFiq then some .fiq
  else if m = modeIrq then some .irq
  else if m = modeSvc then some .svc
  else if m = modeAbt then some .abt
  else if m = modeUnd then some .und
  else none

/-- One of the seven modes of R45; the other 25 values are illegal (R46). -/
def legalMode (m : BitVec 5) : Bool := m == modeUser || m == modeSys || (excMode m).isSome

/-- A mode other than User (R590). -/
def privileged (m : BitVec 5) : Bool := m != modeUser

/-! ### The condition field (R172) -/

/-- `ConditionPassed` (R21, R172). -/
def Psr.passes (p : Psr) : Cond → Bool
  | .eq => p.z
  | .ne => !p.z
  | .cs => p.c
  | .cc => !p.c
  | .mi => p.n
  | .pl => !p.n
  | .vs => p.v
  | .vc => !p.v
  | .hi => p.c && !p.z
  | .ls => !p.c || p.z
  | .ge => p.n == p.v
  | .lt => p.n != p.v
  | .gt => !p.z && p.n == p.v
  | .le => p.z || p.n != p.v
  | .al => true

/-! ### Flag computations -/

/-- N and Z of a 32-bit result (R41). -/
def Psr.setNZ (p : Psr) (r : Word) : Psr := { p with n := r.msb, z := r == 0 }

/-- N and Z of a 64-bit result (R41, R303). -/
def Psr.setNZ64 (p : Psr) (r : BitVec 64) : Psr := { p with n := r.msb, z := r == 0 }

/-- The logical class of R276: N, Z from the result, C from the shifter, V unchanged. -/
def Psr.setLogical (p : Psr) (r : Word) (c : Bool) : Psr := { p.setNZ r with c := c }

/-- The addition and subtraction classes of R276: all four flags from `AddWithCarry`. -/
def Psr.setArith (p : Psr) (r : Sum) : Psr := { p.setNZ r.value with c := r.carry, v := r.overflow }

/-- The sticky flag (R317): set if `b`, never cleared. -/
def Psr.stickyQ (p : Psr) (b : Bool) : Psr := { p with q := p.q || b }

/-! ### A status register as a word (R40) -/

/-- The 32-bit value of a status register; the reserved bits [26:8] read as 0 (R47). -/
def Psr.toWord (p : Psr) : Word :=
  BitVec.ofBool p.n ++ BitVec.ofBool p.z ++ BitVec.ofBool p.c ++ BitVec.ofBool p.v ++ BitVec.ofBool p.q ++ 0#19 ++
    BitVec.ofBool p.i ++ BitVec.ofBool p.f ++ BitVec.ofBool p.t ++ p.m

/-- The status register a 32-bit value is; the reserved bits are ignored (R47). -/
def Psr.ofWord (w : Word) : Psr where
  n := w.getLsbD 31
  z := w.getLsbD 30
  c := w.getLsbD 29
  v := w.getLsbD 28
  q := w.getLsbD 27
  i := w.getLsbD 7
  f := w.getLsbD 6
  t := w.getLsbD 5
  m := w.extractLsb' 0 5

/-- A status register with the bits of `mask` taken from `v` (R341). -/
def Psr.write (p : Psr) (mask v : Word) : Psr := Psr.ofWord ((p.toWord &&& ~~~mask) ||| (v &&& mask))

end Sys2Proof.Machine
end

