-- ==== Sys2Proof/Machine/Checks.lean ====
section
/-! DEFINITION. The UNPREDICTABLE forms that the operands alone decide (R178, R180, R182 to R184, U1, U2, U4), one check for
each shape of instruction; the meanings refuse them when the condition passes (log 21), WellFormed.lean collects them. -/

namespace Sys2Proof.Machine

/-- The reason of the first case that holds. -/
def firstOf : List (Bool × Unpred) → Option Unpred
  | [] => none
  | (b, u) :: r => if b then some u else firstOf r

/-- A Should Be Zero or Should Be One field does not hold the prescribed value (R180). -/
def fieldCheck {n : Nat} (field prescribed : BitVec n) : Option Unpred := firstOf [(field != prescribed, .sbzSbo)]

/-! ### Data processing, multiply, status -/

/-- Register-shifted data processing: no register field is 15 (R178). -/
def shRegCheck (rn rd rs rm : Reg) : Option Unpred :=
  firstOf [(rn == 15 || rd == 15 || rs == 15 || rm == 15, .pcOperand)]

/-- Register-shifted forms without Rd or without Rn: the Should Be Zero field `z` (R180), and no register field 15 (R178). -/
def shRegCheckZ (z r rs rm : Reg) : Option Unpred :=
  firstOf [(z != 0, .sbzSbo), (r == 15 || rs == 15 || rm == 15, .pcOperand)]

/-- CLZ (R294). -/
def clzCheck (o1 : BitVec 4) (rd : Reg) (o2 : BitVec 4) (rm : Reg) : Option Unpred :=
  firstOf [(o1 != 15 || o2 != 15, .sbzSbo), (rd == 15 || rm == 15, .pcOperand)]

/-- MUL (R300, R301); MLA with `rn` in the place of the Should Be Zero field (R302). -/
def mulCheck (rd : Reg) (z : BitVec 4) (rs rm : Reg) : Option Unpred :=
  firstOf [(z != 0, .sbzSbo), (rd == 15 || rs == 15 || rm == 15, .pcOperand), (rd == rm, .destIsRm)]

/-- MLA (R300, R302). -/
def mlaCheck (rd rn rs rm : Reg) : Option Unpred :=
  firstOf [(rd == 15 || rn == 15 || rs == 15 || rm == 15, .pcOperand), (rd == rm, .destIsRm)]

/-- The long multiplies (R300, R303). -/
def longCheck (rdHi rdLo rs rm : Reg) : Option Unpred :=
  firstOf [(rdHi == 15 || rdLo == 15 || rs == 15 || rm == 15, .pcOperand), (rdHi == rdLo, .hiIsLo),
    (rdHi == rm || rdLo == rm, .destIsRm)]

/-- SMLAL<x><y> (R300, R312). -/
def smlalXYCheck (rdHi rdLo rs rm : Reg) : Option Unpred :=
  firstOf [(rdHi == 15 || rdLo == 15 || rs == 15 || rm == 15, .pcOperand), (rdHi == rdLo, .hiIsLo)]

/-- SMLA<x><y> and SMLAW<y>: no register field is 15 (R300). -/
def fourRegCheck (a b c d : Reg) : Option Unpred :=
  firstOf [(a == 15 || b == 15 || c == 15 || d == 15, .pcOperand)]

/-- Three registers and a Should Be Zero field: SMUL<x><y>, SMULW<y> and the saturating instructions (R300). -/
def threeRegCheck (z : BitVec 4) (a b c : Reg) : Option Unpred :=
  firstOf [(z != 0, .sbzSbo), (a == 15 || b == 15 || c == 15, .pcOperand)]

/-- BX: bits [19:8] are ones (R335). -/
def bxCheck (o : BitVec 12) : Option Unpred := fieldCheck o 0xFFF

/-- BLX(2) (R336). -/
def blxCheck (o : BitVec 12) (rm : Reg) : Option Unpred :=
  firstOf [(o != 0xFFF, .sbzSbo), (rm == 15, .pcOperand)]

/-- MRS (R338). -/
def mrsCheck (o : BitVec 4) (rd : Reg) (z1 z2 : BitVec 4) : Option Unpred :=
  firstOf [(o != 15 || z1 != 0 || z2 != 0, .sbzSbo), (rd == 15, .pcOperand)]

/-- MSR, register operand (R341). -/
def msrCheck (o z : BitVec 4) (rm : Reg) : Option Unpred :=
  firstOf [(o != 15 || z != 0, .sbzSbo), (rm == 15, .pcOperand)]

/-! ### Loads and stores -/

/-- Addressing mode 2, immediate offset (R182); `noPc` when r15 may not be transferred (R356, R357, R358, R360). -/
def mode2ImmCheck (noPc p w : Bool) (rn rd : Reg) : Option Unpred :=
  firstOf [(noPc && rd == 15, .pcOperand), ((!p || w) && rn == 15, .pcBase), ((!p || w) && rn == rd, .baseIsDest)]

/-- Addressing mode 2, register offset (R182). -/
def mode2RegCheck (noPc p w : Bool) (rn rd rm : Reg) : Option Unpred :=
  firstOf [(noPc && rd == 15 || rm == 15, .pcOperand), ((!p || w) && rn == 15, .pcBase),
    ((!p || w) && rn == rd, .baseIsDest), ((!p || w) && rm == rn, .baseIsOffset)]

/-- Addressing mode 3, immediate offset (R183, R366). -/
def mode3ImmCheck (p w : Bool) (rn rd : Reg) : Option Unpred :=
  firstOf [(!p && w, .postIndexedW), (rd == 15, .pcOperand), ((!p || w) && rn == 15, .pcBase),
    ((!p || w) && rn == rd, .baseIsDest)]

/-- Addressing mode 3, register offset (R183). -/
def mode3RegCheck (p w : Bool) (rn rd : Reg) (z : BitVec 4) (rm : Reg) : Option Unpred :=
  firstOf [(z != 0, .sbzSbo), (!p && w, .postIndexedW), (rd == 15 || rm == 15, .pcOperand),
    ((!p || w) && rn == 15, .pcBase), ((!p || w) && rn == rd, .baseIsDest)]

/-- The first register of LDRD and STRD is even and not r14 (R370, R371, U4). -/
def oddPairCheck (rd : Reg) : Bool := rd.getLsbD 0 || rd == 14

/-- LDRD, immediate offset (R370). -/
def ldrdImmCheck (p w : Bool) (rn rd : Reg) : Option Unpred :=
  firstOf [(!p && w, .postIndexedW), (oddPairCheck rd, .oddPair), ((!p || w) && rn == 15, .pcBase),
    ((!p || w) && (rn == rd || rn == rd + 1), .baseIsDest)]

/-- LDRD, register offset (R370). -/
def ldrdRegCheck (p w : Bool) (rn rd : Reg) (z : BitVec 4) (rm : Reg) : Option Unpred :=
  firstOf [(z != 0, .sbzSbo), (!p && w, .postIndexedW), (oddPairCheck rd, .oddPair), (rm == 15, .pcOperand),
    ((!p || w) && rn == 15, .pcBase), ((!p || w) && (rn == rd || rn == rd + 1), .baseIsDest),
    (rm == rd || rm == rd + 1, .pairIsOffset)]

/-- STRD, immediate offset (R371, R183). -/
def strdImmCheck (p w : Bool) (rn rd : Reg) : Option Unpred :=
  firstOf [(!p && w, .postIndexedW), (oddPairCheck rd, .oddPair), ((!p || w) && rn == 15, .pcBase),
    ((!p || w) && rn == rd, .baseIsDest)]

/-- STRD, register offset (R371, R183). -/
def strdRegCheck (p w : Bool) (rn rd : Reg) (z : BitVec 4) (rm : Reg) : Option Unpred :=
  firstOf [(z != 0, .sbzSbo), (!p && w, .postIndexedW), (oddPairCheck rd, .oddPair), (rm == 15, .pcOperand),
    ((!p || w) && rn == 15, .pcBase), ((!p || w) && rn == rd, .baseIsDest)]

/-- LDM(1) and LDM(3) (R184, R386): `list` holds bit 15. -/
def ldmCheck (w : Bool) (rn : Reg) (list : BitVec 16) : Option Unpred :=
  firstOf [(list == 0, .emptyList), (rn == 15, .pcBase), (w && list.getLsbD rn.toNat, .baseInList)]

/-- STM(1) (R184). -/
def stmCheck (rn : Reg) (list : BitVec 16) : Option Unpred :=
  firstOf [(list == 0, .emptyList), (rn == 15, .pcBase)]

/-- LDM(2) and STM(2): the W bit `z` should be zero (R389, R392). -/
def userListCheck (z : BitVec 1) (rn : Reg) (list : BitVec 16) : Option Unpred :=
  firstOf [(z != 0, .userListW), (list == 0, .emptyList), (rn == 15, .pcBase)]

/-- SWP and SWPB (R396). -/
def swapCheck (rn rd : Reg) (z : BitVec 4) (rm : Reg) : Option Unpred :=
  firstOf [(z != 0, .sbzSbo), (rn == 15 || rd == 15 || rm == 15, .pcOperand), (rn == rm || rn == rd, .swapBase)]

/-- A register field is not 15: PLD (R378), MCR and MRC to CP15 and CP14 (R231, R260). -/
def noPcCheck (r : Reg) : Option Unpred := firstOf [(r == 15, .pcOperand)]

/-! ### Thumb -/

/-- ADD(4) and MOV(3): at least one high register (R428, R438). -/
def hiCheck (h1 h2 : Bool) : Option Unpred := firstOf [(!h1 && !h2, .bothLow)]

/-- CMP(3) (R441). -/
def hiCmpCheck (h1 h2 : Bool) (rn : LReg) : Option Unpred :=
  firstOf [(!h1 && !h2, .bothLow), (h1 && rn == 7, .pcOperand)]

/-- MUL (R454). -/
def thumbMulCheck (rm rd : LReg) : Option Unpred := firstOf [(rd == rm, .destIsRm)]

/-- BLX(2) (R526, R536). -/
def thumbBlxCheck (h2 : Bool) (rm z : BitVec 3) : Option Unpred :=
  firstOf [(z != 0, .sbzSbo), (h2 && rm == 7, .pcOperand)]

/-- PUSH and POP: the list is not empty (R500, R501). -/
def pushCheck (r : Bool) (list : BitVec 8) : Option Unpred := firstOf [(!r && list == 0, .emptyList)]

/-- LDMIA: the list is not empty (R502). -/
def listCheck (list : BitVec 8) : Option Unpred := firstOf [(list == 0, .emptyList)]

/-- STMIA: the list is not empty, and a base in it is the lowest of it (R503, R536(b), R536(c)). -/
def stmiaCheck (rn : LReg) (list : BitVec 8) : Option Unpred :=
  let l : BitVec 16 := 0#8 ++ list
  firstOf [(list == 0, .emptyList), (l.getLsbD rn.toNat && !isLowest l rn.reg, .baseInList)]

end Sys2Proof.Machine
end

