-- ==== Sys2Proof/Machine/Memory.lean ====
section
/-! DEFINITION. The memories and their buffers (spec/20_memory.md): byte stores in canonical form, byte lanes (R103, R104),
routing (R112), the TCMs with their write buffers (R128 to R130, R143, R144), the AHB with its write buffer (R120 to R127)
and error responses (R142, R146). -/

namespace Sys2Proof.Machine

/-! ### Byte stores -/

/-- The byte written at an address, if one was. -/
def Memory.get? : Memory → Nat → Option Byte
  | [], _ => none
  | (k, b) :: r, a => if a = k then some b else Memory.get? r a

/-- Write one byte, keeping the addresses strictly rising. -/
def Memory.set : Memory → Nat → Byte → Memory
  | [], a, b => [(a, b)]
  | (k, c) :: r, a, b =>
    if a < k then (a, b) :: (k, c) :: r else if a = k then (a, b) :: r else (k, c) :: Memory.set r a b

/-- Write bytes at ascending addresses from `a`. -/
def Memory.setBytes (m : Memory) (a : Nat) : List Byte → Memory
  | [] => m
  | b :: r => (m.set a b).setBytes (a + 1) r

/-- Write bytes of which each is kept or lost by a free choice (U21, U40, U12: any value among old and new). -/
def Memory.mixBytes (m : Memory) (free a : Nat) : List Byte → Memory
  | [] => m
  | b :: r => (if Config.freeBit free then m.set a b else m).mixBytes (free + 1) (a + 1) r

/-- Bytes for the places from `a` up of which each is the new one or the one that `old` gives, by a free choice (U40: any value among
old and new). -/
def mixed (free : Nat) (old : Nat → Byte) (a : Nat) : List Byte → List Byte
  | [] => []
  | b :: r => (if Config.freeBit free then b else old a) :: mixed (free + 1) old (a + 1) r

/-- The `n` low bytes of a word, least significant first. -/
def wordBytes (w : Word) : Nat → List Byte
  | 0 => []
  | n + 1 => w.setWidth 8 :: wordBytes (w >>> 8) n

/-- The word whose bytes are given, least significant first. -/
def ofBytes : List Byte → Word
  | [] => 0
  | b :: r => b.setWidth 32 ||| (ofBytes r <<< 8)

/-- The `n` addresses from `a`. -/
def span (a : Nat) : Nat → List Nat
  | 0 => []
  | n + 1 => a :: span (a + 1) n

/-! ### Addresses and lanes -/

/-- The address the bus presents: the low bits of a halfword or word access are forced to 0 (R118(b)). -/
def forced (size : Nat) (a : Word) : Nat := a.toNat / size * size

/-- The place in the word-organised store (R103) of the lowest byte of an aligned access of `size` bytes at `a`: the lanes
of R104. With B = 0 it is `a`; with B = 1 a byte or halfword address counts down inside its word. -/
def lane (big : Bool) (size a : Nat) : Nat :=
  if big then a / 4 * 4 + (4 - size - a % 4) else a

/-- Where an access goes (R112). -/
inductive Port where
  | tcm (t : Tcm)
  | ahb
deriving DecidableEq, Repr

/-- The routing of a data access of the core (R112). -/
def State.dataPort (s : State) (a : Word) : Port :=
  if a.toNat < 0x400000 then (if s.ctl.i then .tcm .itcm else .ahb)
  else if a.toNat < 0x800000 then (if s.ctl.d then .tcm .dtcm else .ahb)
  else .ahb

/-! ### The TCMs -/

/-- The size of a TCM in bytes (R53). -/
def State.tcmSize (s : State) : Tcm → Nat
  | .itcm => tcmBytes s.params.itcmSize
  | .dtcm => tcmBytes s.params.dtcmSize

/-- The RAM of a TCM. -/
def State.ram (s : State) : Tcm → Memory
  | .itcm => s.itcm
  | .dtcm => s.dtcm

/-- Replace the RAM of a TCM. -/
def State.setRam (s : State) : Tcm → Memory → State
  | .itcm, m => { s with itcm := m }
  | .dtcm, m => { s with dtcm := m }

/-- The write buffer of a TCM (R68). -/
def State.tcmWB (s : State) : Tcm → List TcmEntry
  | .itcm => s.itcmWB
  | .dtcm => s.dtcmWB

/-- Replace the write buffer of a TCM. -/
def State.setTcmWB (s : State) : Tcm → List TcmEntry → State
  | .itcm, l => { s with itcmWB := l }
  | .dtcm, l => { s with dtcmWB := l }

/-- The order bit of a TCM (R130). -/
def State.tcmOrder (s : State) : Tcm → Bool
  | .itcm => s.cfg.i
  | .dtcm => s.cfg.d

/-- The power-on contents of a TCM (U19, log 1). -/
def powerOnByte : Tcm → Nat → Byte
  | .itcm => Config.itcmByte
  | .dtcm => Config.dtcmByte

/-- The byte offset of an address inside its TCM, by the aliasing of R111. -/
def State.tcmOffset (s : State) (t : Tcm) (a : Nat) : Nat := a % 0x400000 % s.tcmSize t

/-- The byte a TCM's RAM holds; a byte nothing has written has its power-on value (R114). -/
def State.ramByte (s : State) (t : Tcm) (o : Nat) : Byte := ((s.ram t).get? o).getD (powerOnByte t o)

/-- The byte an entry supplies at an offset, if the entry covers it. -/
def TcmEntry.byte? (e : TcmEntry) (o : Nat) : Option Byte :=
  if e.off ≤ o ∧ o < e.off + e.size then some (byteAt e.data (o - e.off)) else none

/-- The byte of the youngest entry that covers an offset (R129). -/
def bufferByte : List TcmEntry → Nat → Option Byte
  | [], _ => none
  | e :: r, o => match bufferByte r o with
    | some b => some b
    | none => e.byte? o

/-- The byte the core reads at an offset of a TCM: from the write buffer, else from the RAM (R129). -/
def State.tcmByte (s : State) (t : Tcm) (o : Nat) : Byte := (bufferByte (s.tcmWB t) o).getD (s.ramByte t o)

/-- Every byte of an access is in the write buffer: the RAM is not read (R144). -/
def State.fullHit (s : State) (t : Tcm) (o n : Nat) : Bool :=
  (span o n).all fun i => (bufferByte (s.tcmWB t) i).isSome

/-- The environment's error detection logic lists the word that holds an offset (R143). -/
def State.listedError (s : State) (t : Tcm) (o : Nat) : Bool :=
  (match t with | .itcm => s.itcmErrors | .dtcm => s.dtcmErrors).contains (o / 4 * 4)

/-- `TcmError` for the word that holds an offset (R143): the environment's list, or, for a word that holds a byte nothing
has written, its power-on error mark (R114, log 12). -/
def State.ramError (s : State) (t : Tcm) (o : Nat) : Bool :=
  let w := o / 4 * 4
  let powerOn := match t with | .itcm => Config.itcmError w | .dtcm => Config.dtcmError w
  s.listedError t o || ((span w 4).any fun i => ((s.ram t).get? i).isNone) && powerOn

/-- A read of a TCM reports an error: error support is fitted and the RAM was read (R143, R144). -/
def State.tcmReadError (s : State) (t : Tcm) (o n : Nat) : Bool :=
  s.params.tcmErrors && !s.fullHit t o n && s.ramError t o

/-- A write to the RAM of a TCM at an offset meets an error: error support is fitted and the environment lists the word (R143, U40). That
the list speaks of writes as well as of reads, and the power-on marks of reads only, is a DESIGN CHOICE, log 12. -/
def State.tcmWriteError (s : State) (t : Tcm) (o : Nat) : Bool := s.params.tcmErrors && s.listedError t o

/-- A write of `n` bytes arrives at the RAM of a TCM, from its write buffer or from the DMA master. An error on it is ignored, and each
byte is then the old or the new one (R143, R154, U40). -/
def State.putRam (s : State) (t : Tcm) (o n : Nat) (v : Word) : State :=
  if s.tcmWriteError t o then
    { s.setRam t ((s.ram t).setBytes o (mixed s.free (s.ramByte t) o (wordBytes v n))) with free := s.free + n }
  else s.setRam t ((s.ram t).setBytes o (wordBytes v n))

/-- The oldest entry of a TCM write buffer is written into the RAM (R128). -/
def State.drainTcm (s : State) (t : Tcm) : State :=
  match s.tcmWB t with
  | [] => s
  | e :: r => (s.setTcmWB t r).putRam t e.off e.size e.data

/-- A TCM write buffer is emptied, oldest entry first (R128, R130). -/
def State.drainTcmAll (s : State) (t : Tcm) : State :=
  (s.tcmWB t).foldl (fun s e => s.putRam t e.off e.size e.data) (s.setTcmWB t [])

/-- The drain that a read waits for when the order bit is set (R130). -/
def State.orderDrain (s : State) (t : Tcm) : State := if s.tcmOrder t then s.drainTcmAll t else s

/-- A store enters a TCM write buffer; a full buffer (two entries) first drains its oldest entry (R128). -/
def State.pushTcm (s : State) (t : Tcm) (e : TcmEntry) : State :=
  let s1 := if 2 ≤ (s.tcmWB t).length then s.drainTcm t else s
  s1.setTcmWB t (s1.tcmWB t ++ [e])

/-! ### The AHB -/

/-- The byte AHB memory holds (R164, log 1, log 10). -/
def State.ahbByte (s : State) (a : Nat) : Byte := (s.ahb.get? a).getD (Config.ahbByte a)

/-- An error region answers a transfer of `n` bytes at `a` with an error (R142, R592). -/
def ErrRegion.hits (r : ErrRegion) (k : AhbKind) (a n : Nat) (priv : Bool) : Bool :=
  decide (r.base < a + n ∧ a < r.base + r.size) && !(r.userOnly && priv) && r.kinds.contains k

/-- The response to a transfer is an error (R142). -/
def State.ahbError (s : State) (k : AhbKind) (a n : Nat) (priv : Bool) : Bool :=
  s.ahbErrors.any fun r => r.hits k a n priv

/-- A write of the kind `k` arrives on the AHB. If the slave answers with an error, each byte of a buffered write is the old or
the new one (R146, U40), and what the bytes of an unbuffered write hold is unknown (R351): free values, any byte (log 11). -/
def State.putAhb (s : State) (k : AhbKind) (a n : Nat) (v : Word) (priv : Bool) : State :=
  if s.ahbError k a n priv then
    if k = .buffered then { s with ahb := s.ahb.mixBytes s.free a (wordBytes v n), free := s.free + n }
    else { s with ahb := s.ahb.setBytes a (wordBytes (Config.freeWord s.free) n), free := s.free + 1 }
  else { s with ahb := s.ahb.setBytes a (wordBytes v n) }

/-- The AHB write buffer drains its oldest data word; the response is discarded (R122, R146). -/
def State.drainAhb (s : State) : State :=
  match s.ahbWB with
  | [] => s
  | e :: r => State.putAhb { s with ahbWB := r } .buffered e.addr e.size e.data e.priv

/-- The AHB write buffer is emptied in order (R123). -/
def State.drainAhbAll (s : State) : State :=
  s.ahbWB.foldl (fun s e => s.putAhb .buffered e.addr e.size e.data e.priv) { s with ahbWB := [] }

/-- A word fits into the AHB write buffer: four data words, and two address entries if it opens one (R67, R121). -/
def ahbRoom (l : List AhbEntry) (first : Bool) : Bool :=
  decide (l.length < 4) && (!first || decide ((l.filter fun e => e.first).length < 2))

/-- The core waits until the AHB write buffer has room; `fuel` entries at most drain (R121). -/
def State.waitAhb (first : Bool) : Nat → State → State
  | 0, s => s
  | n + 1, s => if ahbRoom s.ahbWB first then s else State.waitAhb first n s.drainAhb

/-- A buffered store enters the AHB write buffer (R121). -/
def State.pushAhb (s : State) (e : AhbEntry) : State :=
  let s1 := s.waitAhb e.first s.ahbWB.length
  { s1 with ahbWB := s1.ahbWB ++ [e] }

/-- A store to the AHB is buffered (R120): W = 1, address bit 28 clear, not the write half of a swap. -/
def State.buffered (s : State) (a : Word) (swap : Bool) : Bool := s.ctl.w && !a.getLsbD 28 && !swap

/-- The kind of AHB transfer that a store of the core makes (R120, R125, R148). -/
def State.writeKind (s : State) (a : Word) (swap : Bool) : AhbKind :=
  if swap then .swapWrite else if s.buffered a swap then .buffered else .write

/-- The kind of AHB transfer that a data read of the core makes (R125, R148). -/
def readKind (swap : Bool) : AhbKind := if swap then .swapRead else .read

/-- All three write buffers are emptied: the drain-write-buffer operation and the wait before Standby (R163, R246, R127). -/
def State.drainAll (s : State) : State := ((s.drainAhbAll).drainTcmAll .itcm).drainTcmAll .dtcm

end Sys2Proof.Machine
end

