-- ==== Sys2Proof/Machine/Bus.lean ====
section
/-! DEFINITION. The agents that act on memory beside the core, and that can act between two accesses of one instruction
(R13, R141): the instruction prefetch buffer (R134), the pipeline's fetch-ahead (R70, R135, R160 to R162), the DMA master
(R150 to R155), the environment; and the outcomes that every operation answers with. -/

namespace Sys2Proof.Machine

/-! ### Outcomes -/

/-- The outcome of a meaning. -/
abbrev Result := Host.Outcome State Fault Refusal

/-- The refusal of a case the spec calls UNPREDICTABLE and refuses (R20, D3). -/
def unpredictable (u : Unpred) : Result := .refused (.unpredictable u)

/-- Continue a result that went on. -/
def mapNext (f : State → State) (r : Result) : Result :=
  match r with
  | .next s => .next (f s)
  | .fault x => .fault x
  | .refused x => .refused x

/-- The outcome of a data access: a value, a Data Abort to take, or a stop. -/
inductive Acc (α : Type) where
  | ok (v : α) (s : State)
  | abort (s : State)
  | fault (f : Fault)
  | refused (r : Refusal)
deriving Repr

/-- Go on with the value of an access. -/
def Acc.bind {α β : Type} (a : Acc α) (k : α → State → Acc β) : Acc β :=
  match a with
  | .ok v s => k v s
  | .abort s => .abort s
  | .fault f => .fault f
  | .refused r => .refused r

/-- Finish an instruction that made an access: `k` when it succeeded, `onAbort` when it aborted. -/
def Acc.finish {α : Type} (a : Acc α) (onAbort : State → State) (k : α → State → Result) : Result :=
  match a with
  | .ok v s => k v s
  | .abort s => .next (onAbort s)
  | .fault f => .fault f
  | .refused r => .refused r

/-- The turns of other agents as an access that brings no value. -/
def accOf (r : Result) : Acc Unit :=
  match r with
  | .next s => .ok () s
  | .fault f => .fault f
  | .refused x => .refused x

/-! ### Instruction words -/

/-- The core runs in a privileged mode (R590). -/
def State.priv (s : State) : Bool := privileged s.cpsr.m

/-- `InstrLen` (R18). -/
def State.instrLen (s : State) : Nat := if s.cpsr.t then 2 else 4

/-- The core is neither stopped in debug state, nor in Standby, nor unrecoverable. -/
def State.runs (s : State) : Bool := !s.dbg.halted && !s.standby && !s.unrecoverable

/-- A fetch now carries an external breakpoint mark (R147). -/
def State.bkptMark (s : State) : Bool := s.pins.ibkpt && s.params.fullDebug && s.params.dbgen

/-- A byte of an ITCM offset that no store, buffered or not, has written (R114). -/
def State.itcmUnwritten (s : State) (o : Nat) : Bool :=
  (bufferByte s.itcmWB o).isNone && (s.itcm.get? o).isNone

/-- A fetch from the ITCM reads the word at the word address `wa`, in both states (R138, R140): through the write buffer
(R129), with the error mark of that read (R143, R144). -/
def State.itcmWord (s : State) (wa : Word) : PipeWord :=
  let o := s.tcmOffset .itcm wa.toNat
  { addr := wa
    word := ofBytes ((span o 4).map (s.tcmByte .itcm))
    lo := !(span o 2).any s.itcmUnwritten
    hi := !(span (o + 2) 2).any s.itcmUnwritten
    err := s.tcmReadError .itcm o 4
    bkpt := s.bkptMark
    itcm := true
    drained := false
    old := false }

/-- The core or the prefetch buffer reads an instruction word from the AHB: the write buffer drains first (R123, R134). -/
def State.readInstrWord (s : State) (wa : Word) : IpbEntry :=
  let s1 := s.drainAhbAll
  { addr := wa
    word := ofBytes ((span wa.toNat 4).map s1.ahbByte)
    err := s1.ahbError .fetch wa.toNat 4 s.priv
    bkpt := s.bkptMark }

/-- A word from the AHB or the prefetch buffer as the pipeline holds it. -/
def IpbEntry.toPipe (e : IpbEntry) : PipeWord :=
  { addr := e.addr, word := e.word, lo := true, hi := true, err := e.err, bkpt := e.bkpt, itcm := false, drained := false
    old := false }

/-- The word after `wa` that the prefetch buffer may read: not across a 1KB boundary (R134). -/
def nextInBlock (wa : Word) : Option Word := if wa.toNat % 1024 = 1020 then none else some (wa + 4)

/-- The prefetch buffer holds no more than its depth in the present state (R134). -/
def State.ipbDepth (s : State) : Nat := if s.cpsr.t then 2 else 4

/-- An instruction fetch at an address goes to the ITCM (R112). -/
def State.fetchesItcm (s : State) (a : Word) : Bool := s.ctl.i && decide (a.toNat < 0x400000)

/-- The prefetch buffer reads its next word (R134). -/
def prefetchAhb (s : State) : State :=
  match s.ipbNext with
  | none => s
  | some wa =>
    if s.runs && !s.cfg.b && decide (s.ipb.length < s.ipbDepth) then
      { s.drainAhbAll with ipb := s.ipb ++ [s.readInstrWord wa], ipbNext := nextInBlock wa }
    else s

/-- The pipeline fetches the word of an address ahead of its execution, as a fetch of the core would (R70, R135, R138). The
spec gives no depth and no order for this, so that any address may be fetched at any time. A word taken from the prefetch buffer is
of unknown age and goes with the buffer, at the next control transfer (R134, R162; log 16). -/
def fetchAhead (a : Word) (s : State) : State :=
  let wa := clearLow 2 a
  if !s.runs then s
  else if s.fetchesItcm wa then
    if s.tcmSize .itcm = 0 then s
    else
      let s1 := s.orderDrain .itcm
      { s1 with pipe := s1.itcmWord wa :: s1.pipe }
  else
    match (if s.nonseq || s.cfg.b then none else s.ipb.find? fun e => e.addr == wa) with
    | some e => { s with pipe := { e.toPipe with drained := true } :: s.pipe }
    | none => { s.drainAhbAll with pipe := (s.readInstrWord wa).toPipe :: s.pipe }

/-- The pipeline drops the last word it has fetched from an address. -/
def dropWord (a : Word) (s : State) : State := { s with pipe := s.pipe.eraseP fun p => p.addr == clearLow 2 a }

/-- The drain-write-buffer operation, step (1) of the recipe of R162, has passed: the next control transfer drops the words
fetched before it. -/
def State.barrier (s : State) : State := { s with pipe := s.pipe.map fun p => { p with drained := true } }

/-! ### The DMA master -/

/-- The TCM a DMA address selects (R151). -/
def dmaTcm (a : Word) : Tcm := if a.getLsbD 22 then .dtcm else .itcm

/-- The sizes of a DMA write, and of a debugger's access. -/
def legalSize (size : Nat) : Bool := size == 1 || size == 2 || size == 4

/-- An agent other than the core has written the words that `hit` selects: for these step (2) of the recipe alone suffices, so that
the next control transfer drops them (R161, R162). -/
def State.outdate (hit : PipeWord → Bool) (s : State) : State :=
  { s with pipe := s.pipe.map fun p => if hit p then { p with drained := true } else p }

/-- The DMA master has written the word of the ITCM at an offset (R161, R162). -/
def State.dmaTouches (s : State) (o : Nat) : State :=
  s.outdate fun p => p.itcm && s.tcmOffset .itcm p.addr.toNat / 4 == o / 4

/-- Another AHB master, or a device, changes a byte of AHB memory (R164); what the pipeline and the prefetch buffer hold is not
updated (R160, R162). -/
def ahbWrite (a : Nat) (b : Byte) (s : State) : State :=
  State.outdate (fun p => !p.itcm && p.addr.toNat / 4 == a / 4) { s with ahb := s.ahb.set a b }

/-- A DMA write: the RAM only, never the write buffers (R151 to R153), an error on it ignored (R154, U40); an address that is not aligned is aligned down
(log 33). -/
def dmaWrite (a : Word) (size : Nat) (data : Word) (s : State) : Result :=
  let t := dmaTcm a
  if !legalSize size then unpredictable .badTurn
  else if s.tcmSize t = 0 then .fault (.absentTcm t)
  else
    let k := lane s.ctl.b size (s.tcmOffset t (forced size a))
    let s1 := if t = .itcm then s.dmaTouches k else s
    .next (s1.putRam t k size data)

/-- A DMA read: the whole word of the RAM, and its error for the DMA master (R152 to R154). -/
def dmaRead (a : Word) (s : State) : Result :=
  let t := dmaTcm a
  if s.tcmSize t = 0 then .fault (.absentTcm t)
  else
    let o := s.tcmOffset t (forced 4 a)
    .next { s with dmaOut := some { data := ofBytes ((span o 4).map (s.ramByte t))
                                    err := s.params.tcmErrors && s.ramError t o } }

/-! ### The environment -/

/-- The environment drives the input pins; ETMPROCID keeps its value when ETMEN goes LOW (R611). -/
def State.drivePins (s : State) (p : Pins) : State :=
  { s with pins := p, etmHeld := if s.pins.etmen && !p.etmen then s.procId else s.etmHeld }

/-- DBGIEBKPT or DBGDEWPT is HIGH in monitor debug-mode, where the environment must hold them LOW (R147, R607, U22). -/
def State.externalHigh (s : State) : Bool :=
  s.dbg.monitor && s.params.dbgen && s.params.fullDebug && (s.pins.ibkpt || s.pins.dwpt)

/-- A debug request (R605): EDBGRQ or bit 1 of the Debug Control Register, with DBGEN HIGH (R610). -/
def State.debugRequest (s : State) : Bool := s.params.dbgen && (s.pins.edbgrq || s.dbg.request)

/-- What monitor debug-mode forbids: the external breakpoint and watchpoint pins HIGH (R147, R607, U22), a debug request (R605, U20). -/
def State.monitorStop (s : State) : Option Unpred :=
  if s.externalHigh then some .externalInMonitor
  else if s.dbg.monitor && s.debugRequest then some .requestInMonitor
  else none

/-- FIFOFULL and ETMEN "Must be LOW if ETM is not used": an environment that drives one HIGH then is outside the model (R671, R612,
U34). -/
def State.etmPinStop (s : State) : Option Unpred :=
  if s.params.etm then none
  else if s.pins.fifofull then some .fifofullNoEtm
  else if s.pins.etmen then some .etmenNoEtm
  else none

/-- What the environment must never drive: what monitor debug-mode forbids, and FIFOFULL or ETMEN HIGH with no ETM (R671). -/
def State.inputStop (s : State) : Option Unpred :=
  match s.monitorStop with
  | some u => some u
  | none => s.etmPinStop

/-- The environment drives the input pins; what it must not drive is refused there and then, also inside an instruction (R147, R605,
R612, R671, log 28, log 30, log 40). -/
def setPins (p : Pins) (s : State) : Result :=
  match (s.drivePins p).inputStop with
  | some u => unpredictable u
  | none => .next (s.drivePins p)

/-! ### The turns -/

/-- A turn of an agent on memory (R13, R141). -/
def busTurn (b : BusTurn) (s : State) : Result :=
  match b with
  | .drainAhb => .next s.drainAhb
  | .drainTcm t => .next (s.drainTcm t)
  | .prefetchAhb => .next (prefetchAhb s)
  | .fetchAhead a => .next (fetchAhead a s)
  | .dropWord a => .next (dropWord a s)
  | .dmaWrite a size data => dmaWrite a size data s
  | .dmaRead a => dmaRead a s
  | .setPins p => setPins p s
  | .ahbWrite a b => .next (ahbWrite a b s)
  | .setAhbErrors l => .next { s with ahbErrors := l }
  | .setTcmErrors t l =>
    .next (match t with | .itcm => { s with itcmErrors := l } | .dtcm => { s with dtcmErrors := l })

/-- A turn that needs the AHB, which a locked swap holds between its read and its write (R148). -/
def BusTurn.usesAhb : BusTurn → Bool
  | .drainAhb => true
  | .drainTcm _ => false
  | .prefetchAhb => true
  | .fetchAhead _ => true
  | .dropWord _ => false
  | .dmaWrite _ _ _ => false
  | .dmaRead _ => false
  | .setPins _ => false
  | .ahbWrite _ _ => true
  | .setAhbErrors _ => false
  | .setTcmErrors _ _ => false

/-- The turns of a list, one after the other. -/
def runTurns : List BusTurn → State → Acc Unit
  | [], s => .ok () s
  | b :: r, s => (accOf (busTurn b s)).bind fun _ s1 => runTurns r s1

/-- Between two accesses of one instruction the other agents take the turns that `State.inside` lists next (R141, R385,
log 35); with `locked` the AHB is held (R148). -/
def State.pause (locked : Bool) (s : State) : Acc Unit :=
  match s.inside with
  | [] => .ok () s
  | l :: r => runTurns (l.filter fun b => !(locked && b.usesAhb)) { s with inside := r }

end Sys2Proof.Machine
end

