-- ==== Sys2Proof/Machine/Operands.lean ====
section
/-! DEFINITION. The operand forms: the three shifter operands (R176 to R178), the address arithmetic of addressing modes 2
and 3 (R182, R183, R350) and of addressing mode 4 (R184, R385), branch offsets (R186, R203, R204). -/

namespace Sys2Proof.Machine

/-! ### Shifter operands -/

/-- A shifter operand and the shifter carry out. -/
structure Shifted where
  value : Word
  carry : Bool
deriving DecidableEq, Repr

/-- The immediate form (R176): `zext(immed_8) ROR (2 * rotate_imm)`. -/
def immOperand (rot : BitVec 4) (imm : BitVec 8) (c : Bool) : Shifted :=
  { value := ror (imm.setWidth 32) (2 * rot.toNat)
    carry := if rot = 0 then c else (ror (imm.setWidth 32) (2 * rot.toNat)).msb }

/-- A register shifted by an immediate (R177): 0 means 32 for LSR and ASR, and RRX for ROR. -/
def shiftByImm (sh : Shift) (sa : BitVec 5) (m : Word) (c : Bool) : Shifted :=
  match sh with
  | .lsl => if sa = 0 then { value := m, carry := c }
            else { value := m <<< sa.toNat, carry := m.getLsbD (32 - sa.toNat) }
  | .lsr => if sa = 0 then { value := 0, carry := m.msb }
            else { value := m >>> sa.toNat, carry := m.getLsbD (sa.toNat - 1) }
  | .asr => if sa = 0 then { value := if m.msb then 0xFFFFFFFF else 0, carry := m.msb }
            else { value := m.sshiftRight sa.toNat, carry := m.getLsbD (sa.toNat - 1) }
  | .ror => if sa = 0 then { value := (BitVec.ofBool c ++ m.extractLsb' 1 31 : BitVec 32), carry := m.getLsbD 0 }
            else { value := ror m sa.toNat, carry := m.getLsbD (sa.toNat - 1) }

/-- A register shifted by the bottom byte `n` of a register (R178). -/
def shiftByReg (sh : Shift) (n : Nat) (m : Word) (c : Bool) : Shifted :=
  if n = 0 then { value := m, carry := c }
  else match sh with
  | .lsl => if n < 32 then { value := m <<< n, carry := m.getLsbD (32 - n) }
            else if n = 32 then { value := 0, carry := m.getLsbD 0 }
            else { value := 0, carry := false }
  | .lsr => if n < 32 then { value := m >>> n, carry := m.getLsbD (n - 1) }
            else if n = 32 then { value := 0, carry := m.msb }
            else { value := 0, carry := false }
  | .asr => if n < 32 then { value := m.sshiftRight n, carry := m.getLsbD (n - 1) }
            else { value := if m.msb then 0xFFFFFFFF else 0, carry := m.msb }
  | .ror => if n % 32 = 0 then { value := m, carry := m.msb }
            else { value := ror m (n % 32), carry := m.getLsbD (n % 32 - 1) }

/-- The shift amount in a register: its bottom byte only (R178). -/
def shiftAmount (s : Word) : Nat := (s.extractLsb' 0 8).toNat

/-! ### Addressing modes 2 and 3 -/

/-- An access address and the value written back to the base, if the form writes back (R350). -/
structure Address where
  addr : Word
  wb : Option Word
deriving DecidableEq, Repr

/-- The address arithmetic of R182, R183 and R350. -/
def addressing (p u w : Bool) (base offset : Word) : Address :=
  let target := if u then base + offset else base - offset
  { addr := if p then target else base, wb := if !p || w then some target else none }

/-- The 12-bit immediate offset of addressing mode 2 (R182). -/
def offset12 (off : BitVec 12) : Word := off.setWidth 32

/-- The 8-bit immediate offset of addressing mode 3 (R183). -/
def offset8 (immH immL : BitVec 4) : Word := ((immH ++ immL : BitVec 8)).setWidth 32

/-! ### Addressing mode 4 (R184, R385) -/

/-- The lowest address of a transfer of `n` words. -/
def multiStart (p u : Bool) (n : Nat) (b : Word) : Word :=
  match p, u with
  | false, true => b
  | true, true => b + 4
  | false, false => b - BitVec.ofNat 32 (4 * n) + 4
  | true, false => b - BitVec.ofNat 32 (4 * n)

/-- The value written back to the base. -/
def multiBack (u : Bool) (n : Nat) (b : Word) : Word :=
  if u then b + BitVec.ofNat 32 (4 * n) else b - BitVec.ofNat 32 (4 * n)

/-! ### Branch offsets -/

/-- The byte offset of B, BL and BLX(1): `sext_24(signed_immed_24) << 2` (R186). -/
def branchOffset (off : BitVec 24) : Word := (off.signExtend 32) <<< 2

/-- A sign-extended Thumb halfword offset, in bytes (R203). -/
def thumbOffset {n : Nat} (off : BitVec n) : Word := (off.signExtend 32) <<< 1

/-- An unsigned Thumb immediate scaled by `2^k` (R203). -/
def scaled {n : Nat} (k : Nat) (imm : BitVec n) : Word := (imm.setWidth 32) <<< k

end Sys2Proof.Machine
end

