-- ==== Sys2Proof/Machine/Ops.lean ====
section
/-! DEFINITION. The named operations every meaning is written over: registers by mode (R32), the writes of the pc (R331),
taking an exception (R570, R571) and the return from one (R580), free values, data accesses with their aborts (R19, R350,
R351, R606), and the transfers of several words (R385 to R387). -/

namespace Sys2Proof.Machine

/-! ### General registers (R30 to R36) -/

/-- The physical register of a User-bank index, `R_usr[r]` (R18, R32); index 15 has none and is given r0's place. -/
def userReg (r : Reg) : PhysReg :=
  match r.toNat with
  | 0 => .r0 | 1 => .r1 | 2 => .r2 | 3 => .r3 | 4 => .r4 | 5 => .r5 | 6 => .r6 | 7 => .r7 | 8 => .r8 | 9 => .r9
  | 10 => .r10 | 11 => .r11 | 12 => .r12 | 13 => .r13 | 14 => .r14 | _ => .r0

/-- The r13 of an exception mode (R32). -/
def ExcMode.stackReg : ExcMode → PhysReg
  | .fiq => .r13_fiq | .irq => .r13_irq | .svc => .r13_svc | .abt => .r13_abt | .und => .r13_und

/-- The r14 of an exception mode (R32). -/
def ExcMode.linkReg : ExcMode → PhysReg
  | .fiq => .r14_fiq | .irq => .r14_irq | .svc => .r14_svc | .abt => .r14_abt | .und => .r14_und

/-- The physical register of an index 0 to 14 in the mode `m`: the banking map of R32. -/
def physReg (m : BitVec 5) (r : Reg) : PhysReg :=
  match excMode m with
  | none => userReg r
  | some e =>
    match r.toNat with
    | 13 => e.stackReg
    | 14 => e.linkReg
    | 8 => if e = .fiq then .r8_fiq else .r8
    | 9 => if e = .fiq then .r9_fiq else .r9
    | 10 => if e = .fiq then .r10_fiq else .r10
    | 11 => if e = .fiq then .r11_fiq else .r11
    | 12 => if e = .fiq then .r12_fiq else .r12
    | _ => userReg r

/-- An index names a register that the mode `m` banks (R656). -/
def isBanked (m : BitVec 5) (r : Reg) : Bool := r != 15 && physReg m r != userReg r

/-- The value of a physical register. -/
def State.getPhys (s : State) (p : PhysReg) : Word := s.regs.get p.idx

/-- Write a physical register. -/
def State.setPhys (s : State) (p : PhysReg) (v : Word) : State :=
  { s with regs := s.regs.set p.idx.val v p.idx.isLt }

/-- The value an instruction reads from r15: two instructions ahead (R36). -/
def State.pcRead (s : State) : Word := s.pc + (if s.cpsr.t then 4 else 8)

/-- `R[i]` as an operand (R18). -/
def State.reg (s : State) (r : Reg) : Word :=
  if r = 15 then s.pcRead else s.getPhys (physReg s.cpsr.m r)

/-- `R[i] <- v` for an index 0 to 14 (R18). The meanings write r15 through the pc operations below, never through this. -/
def State.setReg (s : State) (r : Reg) (v : Word) : State :=
  if r = 15 then s else s.setPhys (physReg s.cpsr.m r) v

/-! ### Status registers -/

/-- The SPSR of an exception mode (R48). -/
def State.spsr (s : State) : ExcMode → Psr
  | .fiq => s.spsrs.fiq | .irq => s.spsrs.irq | .svc => s.spsrs.svc | .abt => s.spsrs.abt | .und => s.spsrs.und

/-- Write the SPSR of an exception mode. -/
def State.setSpsr (s : State) (e : ExcMode) (p : Psr) : State :=
  match e with
  | .fiq => { s with spsrs := { s.spsrs with fiq := p } }
  | .irq => { s with spsrs := { s.spsrs with irq := p } }
  | .svc => { s with spsrs := { s.spsrs with svc := p } }
  | .abt => { s with spsrs := { s.spsrs with abt := p } }
  | .und => { s with spsrs := { s.spsrs with und := p } }

/-- The CPSR becomes `p`; an illegal mode makes the core unrecoverable (R46). -/
def State.putCpsr (s : State) (p : Psr) : State :=
  { s with cpsr := p, unrecoverable := s.unrecoverable || !legalMode p.m }

/-! ### Free values (log 5) -/

/-- Write a physical register with a free value (U9). -/
def State.freePhys (s : State) (p : PhysReg) : State :=
  { s.setPhys p (Config.freeWord s.free) with free := s.free + 1 }

/-- Write physical registers with free values, one draw each. -/
def State.freeRegs (s : State) : List PhysReg → State
  | [] => s
  | p :: r => (s.freePhys p).freeRegs r

/-! ### The program counter (R36 to R38, R331) -/

/-- `pc <- NextInstrAddr` (R18, R38). Running past 0xFFFFFFFF is marked, and refused at the next fetch (log 14). The hazard
of R656 lasts one instruction. -/
def State.advance (s : State) : State :=
  { s with pc := s.pc + BitVec.ofNat 32 s.instrLen
           pastTop := decide (2 ^ 32 ≤ s.pc.toNat + s.instrLen)
           bankHazard := false }

/-- The pipeline may still execute a word after a control transfer: no barrier of R162 has passed since it fetched the word. It takes
both, the barrier and the control transfer, to be rid of an old word (R70, R160 to R162, U36, log 16). -/
def PipeWord.outlivesBranch (p : PipeWord) : Bool := !p.drained

/-- The words of the pipeline after a control transfer. -/
def afterTransfer (l : List PipeWord) : List PipeWord :=
  (l.filter fun p => p.outlivesBranch).map fun p => { p with old := true }

/-- A control transfer to an aligned address: the next fetch is nonsequential (R18, R134), and the supplies that CP15 writes
have replaced are gone (R652). -/
def State.branchTo (s : State) (a : Word) : State :=
  { s with pc := a, nonseq := true, pipe := afterTransfer s.pipe, pastTop := false, oldRoutes := []
           bankHazard := false }

/-- Set the Thumb state bit. -/
def State.setT (s : State) (t : Bool) : State := { s with cpsr := { s.cpsr with t := t } }

/-- BX, BLX(2), and a load of the pc with LT = 0 (R331): bit 0 selects the state. -/
def writePcExchange (v : Word) (s : State) : Result :=
  if v.extractLsb' 0 2 = 0b10#2 then unpredictable .target
  else .next ((s.setT (v.getLsbD 0)).branchTo (clearLow 1 v))

/-- A load of the pc (R331, R354, R501): LT selects whether it changes the state. -/
def loadPc (v : Word) (s : State) : Result :=
  if !s.ctl.lt then writePcExchange v s
  else .next (s.branchTo (if s.cpsr.t then clearLow 1 v else clearLow 2 v))

/-- A data-processing result to r15 with S = 0 in ARM state (R277, R331). -/
def writePcArm (v : Word) (s : State) : Result :=
  if v.extractLsb' 0 2 = 0#2 then .next (s.branchTo v) else unpredictable .target

/-- A Thumb ADD(4) or MOV(3) to r15 (R331): the state does not change, bit 0 is ignored. -/
def writePcThumb (v : Word) (s : State) : Result := .next (s.branchTo (clearLow 1 v))

/-! ### Exceptions -/

/-- The exceptions of R570 (Reset is an agent's turn, R620). -/
inductive Exc where
  | undef | swi | prefetchAbort | dataAbort | irq | fiq
deriving DecidableEq, Repr

/-- The mode an exception enters (R571). -/
def Exc.mode : Exc → ExcMode
  | .undef => .und | .swi => .svc | .prefetchAbort => .abt | .dataAbort => .abt | .irq => .irq | .fiq => .fiq

/-- The vector offset of an exception (R571). -/
def Exc.offset : Exc → Word
  | .undef => 0x04 | .swi => 0x08 | .prefetchAbort => 0x0C | .dataAbort => 0x10 | .irq => 0x18 | .fiq => 0x1C

/-- What is added to the pc to give the saved r14 (R571, R575); `t` is the state the exception is taken in. -/
def Exc.linkOffset (t : Bool) : Exc → Word
  | .undef => if t then 2 else 4
  | .swi => if t then 2 else 4
  | .prefetchAbort => 4
  | .dataAbort => 8
  | .irq => 4
  | .fiq => 4

/-- The vector base (R572). -/
def State.vectorBase (s : State) : Word := if s.ctl.v then 0xFFFF0000 else 0

/-- TAKING AN EXCEPTION (R570, R571): r14 and SPSR of the entered mode are written, the mode changes, T is cleared, I is
set, F is set by FIQ, and the pc goes to the vector. The pc of `s` is `InstrAddr`, or `NextToExecute` for an interrupt. -/
def State.takeException (e : Exc) (s : State) : State :=
  let s1 := (s.setPhys e.mode.linkReg (s.pc + e.linkOffset s.cpsr.t)).setSpsr e.mode s.cpsr
  let cpsr := { s.cpsr with m := e.mode.bits, t := false, i := true, f := s.cpsr.f || e == .fiq }
  State.branchTo { s1 with cpsr := cpsr } (s.vectorBase + e.offset)

/-- THE RETURN from an exception (R277, R390, R580): the CPSR becomes the SPSR of the current mode, and the pc `v` in the
state that the new T selects. -/
def exceptionReturn (v : Word) (s : State) : Result :=
  match excMode s.cpsr.m with
  | none => unpredictable .noSpsr
  | some e =>
    let p := s.spsr e
    if p.t then .next ((s.putCpsr p).branchTo (clearLow 1 v))
    else if v.extractLsb' 0 2 = 0#2 then .next ((s.putCpsr p).branchTo v)
    else unpredictable .target

/-- Entry to debug state with `view` for r15 as the debugger then sees it (R602): bit 4 of the Debug Status Register records the
state. The mark of R656 stays: that an instruction which the debugger then scans in counts as the one immediately following an
LDM(2) or STM(2) is a DESIGN CHOICE, log 18. The entry ends Standby, which for a debug request R605 states. DESIGN CHOICE, log 31: so it
does where the instruction after a watchpointed one is wait-for-interrupt, whose wait a restart then does not resume, and where a BKPT
is scanned in after a wait-for-interrupt. -/
def State.haltAt (view : Word) (s : State) : State :=
  { s with standby := false
           dbg := { s.dbg with halted := true, wptLatch := false, statusT := s.cpsr.t, pcView := view } }

/-- Entry to debug state by a breakpoint or a debug request (R602, R603, R605), for which the spec does not say what r15 shows: a
free value (log 45), also where a watchpoint was latched, whose latch goes (DESIGN CHOICE, log 45). -/
def State.enterDebug (s : State) : State := State.haltAt (Config.freeWord s.free) { s with free := s.free + 1 }

/-- A BKPT instruction enters debug state: a debugger in halt mode takes it (R345, log 27). DESIGN CHOICE, log 27: in the reduced debug
configuration too, where R601 says that breakpoints never fire, and R345 enters debug state "as for a breakpoint". -/
def State.bkptHalts (s : State) : Bool := s.params.dbgen && !s.dbg.monitor && s.dbg.takesBkpt

/-- Entry to debug state by a watchpoint (R604): r15 shows a value five instructions on from the next instruction to execute, unless
that instruction was stopped by debug state of its own. -/
def State.enterWatched (s : State) : State :=
  if s.dbg.halted then s else s.haltAt (s.pc + BitVec.ofNat 32 (5 * s.instrLen))

/-- A Data Abort (R545): the entry sequence, then debug state if the instruction has latched a halt-mode watchpoint (R604: "performs
the exception entry sequence; enters debug state"; that an interrupt which came inside the instruction is then not entered first is a
DESIGN CHOICE, log 45, and so is that a debug request which came inside it changes nothing). In debug state the core ignores aborts
(R602): an instruction that the debugger scans in only ends (log 43). -/
def State.dataAbort (s : State) : State :=
  if s.dbg.halted then s.advance
  else
    let s1 := s.takeException .dataAbort
    if s1.dbg.wptLatch && !s1.dbg.monitor then s1.enterWatched else s1

/-! ### Instruction frames -/

/-- The frame of a conditional instruction (R21, R275, R300, R330, R350, R385): a failed condition only advances the pc. -/
def conditional (c : Cond) (s : State) (k : Result) : Result :=
  if s.cpsr.passes c then k else .next s.advance

/-- A form that the spec calls UNPREDICTABLE is refused (R20); `k` is the meaning of the others. -/
def guarded (check : Option Unpred) (k : Result) : Result :=
  match check with
  | some u => unpredictable u
  | none => k

/-! ### Data accesses (R19) -/

/-- A read of `size` bytes that has passed the alignment check: forced address, routing, lanes, drains, errors
(R118(b), R112, R104, R129, R130, R123, R142). `swap` says that it is the read half of a swap (R125, R148). -/
def readData (size : Nat) (priv swap : Bool) (a : Word) (s : State) : Acc Word :=
  match s.dataPort a with
  | .tcm t =>
    if s.tcmSize t = 0 then .fault (.absentTcm t)
    else
      let s1 := s.orderDrain t
      let k := lane s.ctl.b size (s.tcmOffset t (forced size a))
      if s1.tcmReadError t k size then .abort s1
      else .ok (ofBytes ((span k size).map (s1.tcmByte t))) s1
  | .ahb =>
    let s1 := s.drainAhbAll
    let k := lane s.ctl.b size (forced size a)
    if s1.ahbError (readKind swap) k size priv then .abort s1
    else .ok (ofBytes ((span k size).map s1.ahbByte)) s1

/-- A write of `size` bytes that has passed the alignment check. `opened` says that the instruction already has an address
entry in the AHB write buffer, `swap` that it is the write half of a swap; the value tells whether the write was a buffered
AHB write (R112, R120, R121, R123, R125, R128, R142, R148). -/
def writeData (size : Nat) (priv opened swap : Bool) (a v : Word) (s : State) : Acc Bool :=
  let data := ofBytes (wordBytes v size)
  match s.dataPort a with
  | .tcm t =>
    if s.tcmSize t = 0 then .fault (.absentTcm t)
    else
      let k := lane s.ctl.b size (s.tcmOffset t (forced size a))
      .ok false (s.pushTcm t { off := k, size := size, data := data })
  | .ahb =>
    let k := lane s.ctl.b size (forced size a)
    if s.buffered a swap then
      .ok true (s.pushAhb { addr := k, size := size, data := data, first := !opened, priv := priv })
    else
      let s1 := s.drainAhbAll
      let s2 := s1.putAhb (s.writeKind a swap) k size data priv
      if s1.ahbError (s.writeKind a swap) k size priv then .abort s2 else .ok false s2

/-- Watchpoints can match: the debug logic is enabled and present, and the core is not in debug state (R601, R602, R610). -/
def State.watchOn (s : State) : Bool := s.params.dbgen && s.params.fullDebug && !s.dbg.halted

/-- The debugger or the DBGDEWPT pin has something to say of the accesses to come (R65, R147). -/
def State.watched (s : State) : Bool := s.watchOn && (!s.dbg.wptMatch.isEmpty || s.pins.dwpt)

/-- A watchpoint matches this access (R603, R604, R147): the debugger's input for it, or the DBGDEWPT pin. -/
def State.watchHit (s : State) : Bool := s.watchOn && (s.dbg.wptMatch.headD false || s.pins.dwpt)

/-- The debugger's input for this access is used up: each data access has its own (R65). -/
def State.popWatch (s : State) : State := { s with dbg := { s.dbg with wptMatch := s.dbg.wptMatch.tail } }

/-- A matched watchpoint is latched in halt mode (R604). -/
def State.latchWatch (s : State) : State :=
  { s with dbg := { s.dbg with wptLatch := s.dbg.wptLatch || !s.dbg.monitor } }

/-- A monitor debug-mode watchpoint abort sets DbgAbt (R606). -/
def State.setDbgAbt (s : State) : State := { s with dcc := { s.dcc with dbgAbt := true } }

/-- Whether the address breaks the alignment of the access. -/
def misaligned (size : Nat) (a : Word) : Bool := a.toNat % size != 0

/-- The alignment fault of R118(a). -/
def State.alignFault (s : State) (size : Nat) (a : Word) : Bool := s.ctl.a && misaligned size a

/-- `MemRead` (R19) of `size` bytes with the privilege `priv`: alignment fault, the read, then a watchpoint on it (R604,
R606, R607: an external abort has priority). -/
def loadData (size : Nat) (priv swap : Bool) (a : Word) (s : State) : Acc Word :=
  if s.alignFault size a then .abort s
  else if !s.watched then readData size priv swap a s
  else if s.dbg.monitor && s.pins.dwpt then .refused (.unpredictable .externalInMonitor)
  else match readData size priv swap a s.popWatch with
    | .ok v s1 =>
      if !s.watchHit then .ok v s1 else if s.dbg.monitor then .abort s1.setDbgAbt else .ok v s1.latchWatch
    | .abort s1 => .abort (if s.watchHit then s1.latchWatch else s1)
    | .fault f => .fault f
    | .refused r => .refused r

/-- `MemWrite` (R19) of `size` bytes: alignment fault, the write, then a watchpoint on it. Whether a store watched in
monitor debug-mode reaches memory is a free choice (R606, U21). -/
def storeData (size : Nat) (priv opened swap : Bool) (a v : Word) (s : State) : Acc Bool :=
  if s.alignFault size a then .abort s
  else if !s.watched then writeData size priv opened swap a v s
  else if s.dbg.monitor && s.pins.dwpt then .refused (.unpredictable .externalInMonitor)
  else match writeData size priv opened swap a v s.popWatch with
    | .ok b s1 =>
      if !s.watchHit then .ok b s1
      else if s.dbg.monitor then
        .abort (State.setDbgAbt { (if Config.freeBit s1.free then s1 else s.popWatch) with free := s1.free + 1 })
      else .ok b s1.latchWatch
    | .abort s1 => .abort (if s.watchHit then s1.latchWatch else s1)
    | .fault f => .fault f
    | .refused r => .refused r

/-! ### Typed loads and stores -/

/-- What a single load brings into a register: its size and extension (R352, R357, R366, R368, R369). -/
inductive LoadKind where
  | word | byte | half | signedByte | signedHalf
deriving DecidableEq, Repr

/-- The size of a load in bytes (R140). -/
def LoadKind.size : LoadKind → Nat
  | .word => 4 | .byte => 1 | .half => 2 | .signedByte => 1 | .signedHalf => 2

/-- The register value of a load: zero or sign extension, or the rotation of a misaligned word (R353). -/
def LoadKind.extend (k : LoadKind) (a data : Word) : Word :=
  match k with
  | .word => ror data (8 * (a.toNat % 4))
  | .byte => (data.setWidth 8).setWidth 32
  | .half => (data.setWidth 16).setWidth 32
  | .signedByte => (data.setWidth 8).signExtend 32
  | .signedHalf => (data.setWidth 16).signExtend 32

/-- A halfword access at an odd address with A = 0 is refused (R118(b), U3). -/
def State.halfRefused (s : State) (size : Nat) (a : Word) : Bool := !s.ctl.a && size == 2 && misaligned 2 a

/-- A single load (R350, R352 to R354, R357, R360, R363, R366, R368, R369). -/
def loadSingle (k : LoadKind) (priv : Bool) (rn rd : Reg) (x : Address) (s : State) : Result :=
  if s.halfRefused k.size x.addr then unpredictable .misalignedHalf
  else if rd == 15 && !s.ctl.a && misaligned 4 x.addr then unpredictable .misalignedPcLoad
  else (loadData k.size priv false x.addr s).finish State.dataAbort fun data s1 =>
    let s2 := match x.wb with | some w => s1.setReg rn w | none => s1
    if rd = 15 then loadPc (k.extend x.addr data) s2
    else .next (s2.setReg rd (k.extend x.addr data)).advance

/-- A single store of `size` bytes of `v` (R350, R355, R358, R361, R364, R367). -/
def storeSingle (size : Nat) (priv : Bool) (rn : Reg) (x : Address) (v : Word) (s : State) : Result :=
  if s.halfRefused size x.addr then unpredictable .misalignedHalf
  else (storeData size priv false false x.addr v s).finish State.dataAbort fun _ s1 =>
    .next (match x.wb with | some w => s1.setReg rn w | none => s1).advance

/-- The value stored for r15 (R356). -/
def State.storedPc (s : State) : Word := s.pc + (if s.params.storedPc12 then 12 else 8)

/-- The value a store takes from a register (R355, R356, R391). -/
def State.stored (s : State) (r : Reg) : Word := if r = 15 then s.storedPc else s.reg r

/-! ### Transfers of several words -/

/-- Words read from ascending addresses; other agents can act before each (R385, R370, R141). -/
def loadWords (priv : Bool) : Nat → Word → State → Acc (List Word)
  | 0, _, s => .ok [] s
  | n + 1, a, s =>
    (s.pause false).bind fun _ s0 =>
      (loadData 4 priv false a s0).bind fun v s1 =>
        (loadWords priv n (a + 4) s1).bind fun vs s2 => .ok (v :: vs) s2

/-- Words written to ascending addresses, other agents acting before each (R141); a run of buffered AHB words shares one address
entry (R385, R371, R121). -/
def storeWords (priv opened : Bool) : List Word → Word → State → Acc Unit
  | [], _, s => .ok () s
  | v :: vs, a, s =>
    (s.pause false).bind fun _ s0 =>
      (storeData 4 priv opened false a v s0).bind fun b s1 => storeWords priv b vs (a + 4) s1

/-- Write loaded words into registers, r15 passed over. -/
def State.writeRegs (s : State) (place : Reg → PhysReg) : List Reg → List Word → State
  | r :: rs, v :: vs => (if r = 15 then s else s.setPhys (place r) v).writeRegs place rs vs
  | _, _ => s

/-- The physical register that an index names in the mode `m`, if it is not the pc. -/
def physReg? (m : BitVec 5) (r : Reg) : Option PhysReg := if r = 15 then none else some (physReg m r)

/-- What an aborted multiple load leaves: its listed registers hold free values, except the base, if that is not r15, and the pc
(R351, R387, R504, U9); then the Data Abort. -/
def abortedLoad (base : Option PhysReg) (place : Reg → PhysReg) (rs : List Reg) (s : State) : State :=
  (s.freeRegs (((rs.filter fun r => r != 15).map place).filter fun p => some p != base)).dataAbort

/-- The word an STM(1) stores for a register (R385, R386, R391): for a base in the list that is not the lowest, when the form
writes back, "the stored value is UNPREDICTABLE": a free value (log 37). -/
def State.storedWord (s : State) (wback : Bool) (rn : Reg) (list : BitVec 16) (r : Reg) : Word :=
  if r = rn && wback && !isLowest list rn then Config.freeWord s.free else s.stored r

/-- A store multiple has such a free word. -/
def freeBase (wback : Bool) (rn : Reg) (list : BitVec 16) : Bool :=
  wback && list.getLsbD rn.toNat && !isLowest list rn

end Sys2Proof.Machine
end

