-- ==== Sys2Proof/Machine/Coproc.lean ====
section
/-! DEFINITION. The coprocessors: CP15 (spec/40_cp15_system_control.md, spec/10_state.md R50 to R60), CP14
(spec/41_cp14_debug_comms.md), and the coprocessor instructions that no coprocessor takes (spec/47_arm_coprocessor.md). -/

namespace Sys2Proof.Machine

/-! ### The registers as words -/

/-- The Device ID Register (R52, C6). -/
def State.deviceId (s : State) : Word := 0x41059680 ||| (if s.params.idMinor then 1 else 0)

/-- The TCM Size Register (R53). -/
def State.tcmSizeWord (s : State) : Word :=
  ((s.params.dtcmSize.setWidth 32) <<< 18) ||| (if s.params.dtcmSize = 0 then 0x4000 else 0) |||
    ((s.params.itcmSize.setWidth 32) <<< 6) ||| (if s.params.itcmSize = 0 then 4 else 0)

/-- The Control Register as read (R54, R59, R235). -/
def Control.toWord (c : Control) : Word :=
  0#16 ++ BitVec.ofBool c.lt ++ 0#1 ++ BitVec.ofBool c.v ++ BitVec.ofBool c.i ++ 0b1111#4 ++ BitVec.ofBool c.b ++
    0b111#3 ++ BitVec.ofBool c.w ++ BitVec.ofBool c.d ++ BitVec.ofBool c.a ++ 0#1

/-- The writable bits of a word written to the Control Register (R54, R236). -/
def Control.ofWord (v : Word) : Control where
  lt := v.getLsbD 15
  v := v.getLsbD 13
  i := v.getLsbD 12
  b := v.getLsbD 7
  w := v.getLsbD 3
  d := v.getLsbD 2
  a := v.getLsbD 1

/-- The Configuration Control Register as read (R60, R241). -/
def ConfigCtl.toWord (c : ConfigCtl) : Word :=
  0#13 ++ BitVec.ofBool c.i ++ BitVec.ofBool c.d ++ BitVec.ofBool c.b ++ 0#13 ++ BitVec.ofBool c.fm ++
    BitVec.ofBool c.im ++ 0#1

/-- The writable bits of a word written to the Configuration Control Register (R60, R242). -/
def ConfigCtl.ofWord (v : Word) : ConfigCtl where
  i := v.getLsbD 18
  d := v.getLsbD 17
  b := v.getLsbD 16
  fm := v.getLsbD 2
  im := v.getLsbD 1

/-- Why a write of `v` to the Control Register is UNPREDICTABLE: a Should Be Zero or Should Be One bit (R236), or a TCM
switched off while its write buffer holds data (R132, U7). -/
def State.controlRefusal (s : State) (v : Word) : Option Unpred :=
  firstOf [((Control.ofWord v).toWord != v, .cpReserved),
    (s.ctl.i && !(Control.ofWord v).i && !s.itcmWB.isEmpty, .tcmNotDrained),
    (s.ctl.d && !(Control.ofWord v).d && !s.dtcmWB.isEmpty, .tcmNotDrained)]

/-- What supplies the instruction fetches until the write at the pc takes effect (R652). -/
def State.routeNow (s : State) (ipb : Option (List IpbEntry)) : Route :=
  { i := s.ctl.i, b := s.ctl.b, ipb := ipb, next := s.advance.pc }

/-- A write to the Control Register (R236). A changed fetch routing is kept until the next control transfer (R652, log 17). -/
def State.putControl (s : State) (v : Word) : State :=
  let c := Control.ofWord v
  { s with ctl := c
           oldRoutes := if c.i != s.ctl.i || c.b != s.ctl.b then s.routeNow none :: s.oldRoutes else s.oldRoutes }

/-- Why a write of `v` to the Configuration Control Register is UNPREDICTABLE (R242). -/
def configRefusal (v : Word) : Option Unpred := firstOf [((ConfigCtl.ofWord v).toWord != v, .cpReserved)]

/-- A write to the Configuration Control Register (R242); setting B empties the prefetch buffer (R136). Where B changes, what the
prefetch buffer held is kept until the next control transfer (R652, log 17). -/
def State.putConfig (s : State) (v : Word) : State :=
  let c := ConfigCtl.ofWord v
  { s with cfg := c, ipb := if c.b then [] else s.ipb, ipbNext := if c.b then none else s.ipbNext
           oldRoutes := if c.b != s.cfg.b then s.routeNow (some s.ipb) :: s.oldRoutes else s.oldRoutes }

/-- The ETM interface drives its outputs: in the full debug configuration, with ETMEN HIGH (R601, R611). With no ETM `State.etmPinStop`
refuses that (R671). -/
def State.etmDrives (s : State) : Bool := s.params.fullDebug && s.pins.etmen

/-- A write to the Trace Process ID Register (R240). DESIGN CHOICE, log 40: the pulses of ETMPROCIDWR are counted, and come only while
the ETM interface drives its outputs (R601, R611). -/
def State.putProcId (s : State) (v : Word) : State :=
  { s with procId := v, procIdWrites := if s.etmDrives then s.procIdWrites + 1 else s.procIdWrites }

/-! ### CP15 -/

/-- The CP15 registers and operations that a selector names (R232). -/
inductive Cp15 where
  | deviceId | tcmSize | control | waitForInterrupt | drainBuffers | traceProcId | config
deriving DecidableEq, Repr

/-- The selector map of R232. For c13 Opcode_2 is 1 (R58, R240, log 25). -/
def cp15Select (op1 : BitVec 3) (crn crm : BitVec 4) (op2 : BitVec 3) : Option Cp15 :=
  if op1 = 0 ∧ crn = 0 ∧ crm = 0 then (if op2 = 2 then some .tcmSize else some .deviceId)
  else if op1 = 0 ∧ crn = 1 ∧ crm = 0 ∧ op2 = 0 then some .control
  else if op1 = 0 ∧ crn = 7 ∧ crm = 0 ∧ op2 = 4 then some .waitForInterrupt
  else if op1 = 0 ∧ crn = 15 ∧ crm = 8 ∧ op2 = 2 then some .waitForInterrupt
  else if op1 = 0 ∧ crn = 7 ∧ crm = 10 ∧ op2 = 4 then some .drainBuffers
  else if op1 = 0 ∧ crn = 13 ∧ op2 = 1 then some .traceProcId
  else if op1 = 1 ∧ crn = 15 ∧ crm = 1 ∧ op2 = 0 then some .config
  else none

/-- The value an MRC reads from CP15; `none` where R232 says "not defined" (R233 to R235, R240, R241). -/
def State.cp15Read (s : State) : Cp15 → Option Word
  | .deviceId => some s.deviceId
  | .tcmSize => some s.tcmSizeWord
  | .control => some s.ctl.toWord
  | .traceProcId => some s.procId
  | .config => some s.cfg.toWord
  | .waitForInterrupt => none
  | .drainBuffers => none

/-- The drain of all write buffers, then standby (R244). -/
def State.enterStandby (s : State) : State := { s.drainAll with standby := true }

/-- What a write of `v` does to CP15, by an MCR or through chain 15 (R236, R240, R242, R244, R246, R608). -/
def cp15Put (r : Cp15) (v : Word) (s : State) : Result :=
  match r with
  | .deviceId => unpredictable .cpSelector
  | .tcmSize => unpredictable .cpSelector
  | .control => guarded (s.controlRefusal v) (.next (s.putControl v))
  | .waitForInterrupt => .next s.enterStandby
  | .drainBuffers => .next s.drainAll.barrier
  | .traceProcId => .next (s.putProcId v)
  | .config => guarded (configRefusal v) (.next (s.putConfig v))

/-- What an MCR does to CP15 (R230): the write, then the next instruction. -/
def cp15Write (r : Cp15) (v : Word) (s : State) : Result := mapNext State.advance (cp15Put r v s)

/-- In User mode a CP15 access takes the Undefined Instruction exception whatever the selector (R230). -/
def privilegedOnly (s : State) (k : Result) : Result :=
  if s.priv then k else .next (s.takeException .undef)

/-! ### CP14 -/

/-- The CP14 registers (R261). -/
inductive Cp14 where
  | status | data | monitorStatus
deriving DecidableEq, Repr

/-- The selector map of R261. -/
def cp14Select (op1 : BitVec 3) (crn crm : BitVec 4) (op2 : BitVec 3) : Option Cp14 :=
  if op1 = 0 ∧ crm = 0 ∧ op2 = 0 then
    (if crn = 0 then some .status else if crn = 1 then some .data else if crn = 2 then some .monitorStatus else none)
  else none

/-- The Debug Comms Channel Status Register (R62, R262). -/
def Dcc.statusWord (d : Dcc) : Word := 0x60000000 ||| (if d.w then 2 else 0) ||| (if d.r then 1 else 0)

/-- What an MRC reads from CP14, and the state after it (R262, R263, R265). A data read with R = 0 gives a free value
(R263, U6, log 23). -/
def cp14Read (r : Cp14) (s : State) : Word × State :=
  match r with
  | .status => (s.dcc.statusWord, s)
  | .data =>
    if s.dcc.r then (s.dcc.readData, { s with dcc := { s.dcc with r := false } })
    else (Config.freeWord s.free, { s with free := s.free + 1 })
  | .monitorStatus => (if s.dcc.dbgAbt then 1 else 0, s)

/-- What an MCR does to CP14 (R264, R266). A data write with W = 1 leaves the old or the new message, by a free choice (R264,
R659, U5, log 23). -/
def cp14Write (r : Cp14) (v : Word) (s : State) : Result :=
  match r with
  | .status => unpredictable .cpSelector
  | .data =>
    if s.dcc.w then
      .next (State.advance { s with dcc := { s.dcc with writeData := if Config.freeBit s.free then v else s.dcc.writeData }
                                    free := s.free + 1 })
    else .next (State.advance { s with dcc := { s.dcc with writeData := v, w := true } })
  | .monitorStatus =>
    if v.extractLsb' 1 31 = 0 then .next (State.advance { s with dcc := { s.dcc with dbgAbt := v.getLsbD 0 } })
    else unpredictable .cpReserved

/-- CP14 in User mode is refused (R260, D16, log 24). -/
def cp14Access (s : State) (k : Result) : Result := if s.priv then k else unpredictable .cp14User

/-! ### The other coprocessor instructions -/

/-- No coprocessor takes the instruction (R400, R401). -/
def noCoprocessor (s : State) : Result := .next (s.takeException .undef)

/-- The unconditional forms: Undefined for the coprocessors 0 to 13, refused for 14 and 15 (R410). -/
def unconditionalCp (cp : BitVec 4) (s : State) : Result :=
  if cp = 14 ∨ cp = 15 then unpredictable .cpUncond else noCoprocessor s

/-- CDP (R402). -/
def execCdp (c : Cond) (_op1 : BitVec 4) (_crn : BitVec 4) (_crd : BitVec 4) (_cp : BitVec 4) (_op2 : BitVec 3) (_crm : BitVec 4) (s : State) : Result :=
  conditional c s (noCoprocessor s)

/-- LDC (R404). -/
def execLdc (c : Cond) (_p : Bool) (_u : Bool) (_n : Bool) (_w : Bool) (_rn : Reg) (_crd : BitVec 4) (_cp : BitVec 4) (_off : BitVec 8) (s : State) : Result :=
  conditional c s (noCoprocessor s)

/-- STC (R404). -/
def execStc (c : Cond) (_p : Bool) (_u : Bool) (_n : Bool) (_w : Bool) (_rn : Reg) (_crd : BitVec 4) (_cp : BitVec 4) (_off : BitVec 8) (s : State) : Result :=
  conditional c s (noCoprocessor s)

/-- MCR (R406). -/
def execMcr (c : Cond) (_op1 : BitVec 3) (_crn : BitVec 4) (_rd : Reg) (_cp : BitVec 4) (_op2 : BitVec 3) (_crm : BitVec 4) (s : State) : Result :=
  conditional c s (noCoprocessor s)

/-- MRC (R406). -/
def execMrc (c : Cond) (_op1 : BitVec 3) (_crn : BitVec 4) (_rd : Reg) (_cp : BitVec 4) (_op2 : BitVec 3) (_crm : BitVec 4) (s : State) : Result :=
  conditional c s (noCoprocessor s)

/-- MCRR (R408). -/
def execMcrr (c : Cond) (_rn : Reg) (_rd : Reg) (_cp : BitVec 4) (_op1 : BitVec 4) (_crm : BitVec 4) (s : State) : Result :=
  conditional c s (noCoprocessor s)

/-- MRRC (R408). -/
def execMrrc (c : Cond) (_rn : Reg) (_rd : Reg) (_cp : BitVec 4) (_op1 : BitVec 4) (_crm : BitVec 4) (s : State) : Result :=
  conditional c s (noCoprocessor s)

/-- CDP2 (R410). -/
def execCdp2 (_op1 : BitVec 4) (_crn : BitVec 4) (_crd : BitVec 4) (cp : BitVec 4) (_op2 : BitVec 3) (_crm : BitVec 4) (s : State) : Result :=
  unconditionalCp cp s

/-- LDC2 (R410). -/
def execLdc2 (_p : Bool) (_u : Bool) (_n : Bool) (_w : Bool) (_rn : Reg) (_crd : BitVec 4) (cp : BitVec 4) (_off : BitVec 8) (s : State) : Result :=
  unconditionalCp cp s

/-- STC2 (R410). -/
def execStc2 (_p : Bool) (_u : Bool) (_n : Bool) (_w : Bool) (_rn : Reg) (_crd : BitVec 4) (cp : BitVec 4) (_off : BitVec 8) (s : State) : Result :=
  unconditionalCp cp s

/-- MCR2 (R410). -/
def execMcr2 (_op1 : BitVec 3) (_crn : BitVec 4) (_rd : Reg) (cp : BitVec 4) (_op2 : BitVec 3) (_crm : BitVec 4) (s : State) : Result :=
  unconditionalCp cp s

/-- MRC2 (R410). -/
def execMrc2 (_op1 : BitVec 3) (_crn : BitVec 4) (_rd : Reg) (cp : BitVec 4) (_op2 : BitVec 3) (_crm : BitVec 4) (s : State) : Result :=
  unconditionalCp cp s

/-- MCR p15 (R230). -/
def execMcr15 (c : Cond) (op1 : BitVec 3) (crn : BitVec 4) (rd : Reg) (op2 : BitVec 3) (crm : BitVec 4) (s : State) : Result :=
  conditional c s (privilegedOnly s (guarded (noPcCheck rd)
    (match cp15Select op1 crn crm op2 with
    | some r => cp15Write r (s.reg rd) s
    | none => unpredictable .cpSelector)))

/-- MRC p15 (R230). -/
def execMrc15 (c : Cond) (op1 : BitVec 3) (crn : BitVec 4) (rd : Reg) (op2 : BitVec 3) (crm : BitVec 4) (s : State) : Result :=
  conditional c s (privilegedOnly s (guarded (noPcCheck rd)
    (match (cp15Select op1 crn crm op2).bind s.cp15Read with
    | some v => .next (s.setReg rd v).advance
    | none => unpredictable .cpSelector)))

/-- MCR p14 (R260). -/
def execMcr14 (c : Cond) (op1 : BitVec 3) (crn : BitVec 4) (rd : Reg) (op2 : BitVec 3) (crm : BitVec 4) (s : State) : Result :=
  conditional c s (cp14Access s (guarded (noPcCheck rd)
    (match cp14Select op1 crn crm op2 with
    | some r => cp14Write r (s.reg rd) s
    | none => unpredictable .cpSelector)))

/-- MRC p14 (R260). -/
def execMrc14 (c : Cond) (op1 : BitVec 3) (crn : BitVec 4) (rd : Reg) (op2 : BitVec 3) (crm : BitVec 4) (s : State) : Result :=
  conditional c s (cp14Access s (guarded (noPcCheck rd)
    (match cp14Select op1 crn crm op2 with
    | some r => .next ((cp14Read r s).2.setReg rd (cp14Read r s).1).advance
    | none => unpredictable .cpSelector)))

end Sys2Proof.Machine
end

