-- ==== Sys2Proof/Machine/Fetch.lean ====
section
/-! DEFINITION. The instruction the core executes: routing (R112), the ITCM, the instruction prefetch buffer (R69, R134, R136),
the words the pipeline has fetched ahead (R70, R135), error and breakpoint marks (R145, R147), CP15 writes and the supply of
instructions (R652). -/

namespace Sys2Proof.Machine

/-- The instruction at `a` inside its word: the word, or the halfword that the byte order places there (R104, R107). -/
def instrBits (thumb big : Bool) (a w : Word) : Word :=
  if thumb then (halfAt w (a.getLsbD 1 != big)).setWidth 32 else w

/-- What a word of the prefetch buffer gives the instruction at `a`. -/
def IpbEntry.instr (e : IpbEntry) (thumb big : Bool) (a : Word) : Fetched :=
  { bits := instrBits thumb big a e.word, err := e.err, bkpt := e.bkpt }

/-- The bytes of the instruction at `a` have been written (R114). -/
def PipeWord.written (p : PipeWord) (thumb big : Bool) (a : Word) : Bool :=
  if thumb then (if a.getLsbD 1 != big then p.hi else p.lo) else p.lo && p.hi

/-- What a word of the pipeline gives the instruction at the pc. An instruction that nothing has written is refused (R114, U8,
log 15). -/
def State.takeWord (s : State) (p : PipeWord) : Acc Fetched :=
  if p.written s.cpsr.t s.ctl.b s.pc then
    .ok { bits := instrBits s.cpsr.t s.ctl.b s.pc p.word, err := p.err, bkpt := p.bkpt } s
  else .refused (.unpredictable .uninitItcm)

/-- A fetch from the ITCM (R112, R114, R129, R130, R138, R143, R144). -/
def State.fetchItcm (s : State) : Acc Fetched :=
  if s.tcmSize .itcm = 0 then .fault (.absentTcm .itcm)
  else
    let s1 := { s.orderDrain .itcm with nonseq := false }
    s1.takeWord (s1.itcmWord (clearLow 2 s.pc))

/-- A word stays in the prefetch buffer after its first Thumb instruction is taken. -/
def State.keepsWord (s : State) (a : Word) : Bool := s.cpsr.t && !a.getLsbD 1

/-- A fetch that goes out on the AHB. A nonsequential one flushes the prefetch buffer; a sequential one puts nothing into
it (R134). -/
def State.fetchDirect (s : State) (a : Word) : Acc Fetched :=
  let wa := clearLow 2 a
  let e := s.readInstrWord wa
  let keep := !s.nonseq && !s.cfg.b && (s.ipb.head?.map fun e => e.addr) == some (wa + 4)
  .ok (e.instr s.cpsr.t s.ctl.b a)
    { s.drainAhbAll with
      nonseq := false
      ipb := if keep then s.ipb else []
      ipbNext := if s.cfg.b then none else if keep then s.ipbNext else nextInBlock wa }

/-- A fetch from the AHB: a sequential fetch takes its word from the prefetch buffer if it is there (R134); with B = 1 of
the Configuration Control Register every fetch is a transfer of its own (R136). -/
def State.fetchAhb (s : State) (a : Word) : Acc Fetched :=
  match s.ipb with
  | e :: r =>
    if !s.nonseq && !s.cfg.b && e.addr == clearLow 2 a then
      .ok (e.instr s.cpsr.t s.ctl.b a) { s with ipb := if s.keepsWord a then e :: r else r }
    else s.fetchDirect a
  | [] => s.fetchDirect a

/-- An instruction fetch at the pc (R112): the ITCM, or the AHB; never the DTCM. -/
def State.fetchNow (s : State) : Acc Fetched := if s.fetchesItcm s.pc then s.fetchItcm else s.fetchAhb s.pc

/-- What taking a word from the pipeline does to the fetch sequence: its own fetch was the nonsequential one, or took the word
from the prefetch buffer (R134). -/
def State.passWord (s : State) (p : PipeWord) : State :=
  if p.itcm then { s with nonseq := false }
  else if s.nonseq then { s with nonseq := false, ipb := [], ipbNext := if s.cfg.b then none else nextInBlock p.addr }
  else { s with ipb := match s.ipb with
                  | e :: r => if e.addr == p.addr && !s.keepsWord s.pc then r else e :: r
                  | [] => [] }

/-- A word of the pipeline came from where a fetch of its address goes now (R112), or went before a CP15 write since which there
was no control transfer (R652). -/
def State.routes (s : State) (p : PipeWord) : Bool :=
  p.itcm == s.fetchesItcm p.addr ||
    s.oldRoutes.any fun r => p.itcm == (r.i && decide (p.addr.toNat < 0x400000))

/-- What the pipeline's word for the pc gives. If a control transfer has come since the word was fetched, the fetch is made again,
with all it does and with its own marks (R134, R123, R145, R147); only the instruction that it brings may be the old one (R70,
R160, U36). -/
def State.fetchHeld (s : State) (p : PipeWord) : Acc Fetched :=
  if p.old then
    s.fetchNow.bind fun now s1 => (s.takeWord p).bind fun held _ => .ok { now with bits := held.bits } s1
  else (s.passWord p).takeWord p

/-- The instruction the core executes next: from the word that the pipeline has fetched for the pc, if it has one, or by a
fetch now (R70, R138). The pipeline keeps its word, so that the old one can be executed again where the spec allows it. -/
def State.coreFetch (s : State) : Acc Fetched :=
  match s.pipe.find? fun p => p.addr == clearLow 2 s.pc && s.routes p with
  | some p => s.fetchHeld p
  | none => s.fetchNow

/-! ### CP15 writes and the supply of instructions (R652) -/

/-- What memory holds at the pc under a routing; `none` for an ITCM that is absent or unwritten there. -/
def State.memoryWord (s : State) (r : Route) : Option PipeWord :=
  let wa := clearLow 2 s.pc
  if r.i && decide (s.pc.toNat < 0x400000) then
    let p := s.itcmWord wa
    if s.tcmSize .itcm = 0 || !p.written s.cpsr.t r.b s.pc then none else some p
  else some (s.readInstrWord wa).toPipe

/-- What the prefetch buffer contents `l` supply at the pc, if they hold it; else what memory holds. -/
def State.bufferedWord (s : State) (r : Route) (l : List IpbEntry) : Option PipeWord :=
  if r.i && decide (s.pc.toNat < 0x400000) then s.memoryWord r
  else match l.find? fun e => e.addr == clearLow 2 s.pc with
    | some e => some e.toPipe
    | none => s.memoryWord r

/-- What a replaced supply holds at the pc. -/
def State.oldWord (s : State) (r : Route) : Option PipeWord :=
  match r.ipb with
  | none => s.memoryWord r
  | some l => s.bufferedWord r l

/-- What the supply that replaced it holds at the pc. -/
def State.newWord (s : State) (r : Route) : Option PipeWord :=
  let now : Route := { r with i := s.ctl.i, b := s.ctl.b }
  match r.ipb with
  | none => s.memoryWord now
  | some _ => s.bufferedWord now s.ipb

/-- The bits of the instruction at the pc in a word, under a byte order. -/
def State.bitsOf (s : State) (big : Bool) (p : Option PipeWord) : Option Word :=
  p.map fun p => instrBits s.cpsr.t big s.pc p.word

/-- The instruction at the pc depends on which of the supplies of R652 gives it (U37, log 17). For a change of the routing (ITCM
enable, byte order) the old and the new routing are compared; for a change of the prefetch buffer disable bit, what the prefetch
buffer held then and holds now. That a word is older than the store to its address is no ground (R160). -/
def State.staleRoute (s : State) : Bool :=
  s.oldRoutes.any fun r => s.bitsOf r.b (s.oldWord r) != s.bitsOf s.ctl.b (s.newWord r)

/-- The fetch at the pc by a supply that a CP15 write has replaced: the same fetch, from the pipeline's word, the prefetch buffer or
memory with its drains (R70, R123, R134, R160, R161), under the routing, the byte order and the prefetch buffer of that supply.
Every register and setting is as it is now. -/
def State.fetchBy (s : State) (r : Route) : Acc Fetched :=
  let before := { s with ctl := { s.ctl with i := r.i, b := r.b }, oldRoutes := [] }
  (match r.ipb with
   | none => before.coreFetch
   | some l => State.coreFetch { before with cfg := { s.cfg with b := false }, ipb := l }).bind fun f t =>
    .ok f { t with ctl := s.ctl, cfg := s.cfg, oldRoutes := s.oldRoutes
                   ipb := if r.ipb.isSome then s.ipb else t.ipb
                   ipbNext := if r.ipb.isSome then s.ipbNext else t.ipbNext }

/-- The instruction that a replaced supply brings at the pc, where it brings one. -/
def State.bitsBy (s : State) (r : Route) : Option Word :=
  match s.fetchBy r with
  | .ok f _ => if f.err then none else some f.bits
  | .abort _ => none
  | .fault _ => none
  | .refused _ => none

end Sys2Proof.Machine
end

