-- ==== Sys2Proof/Machine/Agents.lean ====
section
/-! DEFINITION. The turns that fall between instructions only: Reset (R620, R622), the reset of the debug logic (R271), and the
debugger's turns (R268, R600 to R608) but the instructions it makes the core execute (`CoreTurn.lean`). -/

namespace Sys2Proof.Machine

/-! ### Reset -/

/-- Every general register (R30). -/
def allPhys : List PhysReg :=
  [.r0, .r1, .r2, .r3, .r4, .r5, .r6, .r7, .r8, .r9, .r10, .r11, .r12, .r13, .r14,
   .r8_fiq, .r9_fiq, .r10_fiq, .r11_fiq, .r12_fiq, .r13_fiq, .r14_fiq,
   .r13_svc, .r14_svc, .r13_abt, .r14_abt, .r13_irq, .r14_irq, .r13_und, .r14_und]

/-- A status register drawn from a free value. -/
def freePsr (n : Nat) : Psr := Psr.ofWord (Config.freeWord n)

/-- Pending TCM stores at Reset: each is written or dropped (R620, U12). -/
def resetTcm (t : Tcm) (s : State) : List TcmEntry → State
  | [] => s
  | e :: r =>
    let s1 := { s with free := s.free + 1 }
    resetTcm t (if Config.freeBit s.free then s1.putRam t e.off e.size e.data else s1) r

/-- Pending AHB stores at Reset: each is written or dropped (R620, U12). -/
def resetAhb (s : State) : List AhbEntry → State
  | [] => s
  | e :: r =>
    let s1 := { s with free := s.free + 1 }
    resetAhb (if Config.freeBit s.free then s1.putAhb .buffered e.addr e.size e.data e.priv else s1) r

/-- What Reset leaves of the pending stores (R620). -/
def State.resetBuffers (s : State) : State :=
  let s1 := resetAhb { s with ahbWB := [], itcmWB := [], dtcmWB := [] } s.ahbWB
  resetTcm .dtcm (resetTcm .itcm s1 s.itcmWB) s.dtcmWB

/-- A WARM RESET (R620, R622, R90 to R93): the registers, SPSRs and flags hold free values, CP15 its reset values, the
buffers are empty, the memories and the debug logic are unchanged (log 29). -/
def State.warmReset (s : State) : State :=
  let s1 := s.resetBuffers.freeRegs allPhys
  let n := s1.free
  { s1 with
    pc := if s1.params.vinithi then 0xFFFF0000 else 0
    cpsr := { freePsr n with i := true, f := true, t := false, m := modeSvc }
    spsrs := { fiq := freePsr (n + 1), irq := freePsr (n + 2), svc := freePsr (n + 3), abt := freePsr (n + 4),
               und := freePsr (n + 5) }
    free := n + 6
    unrecoverable := false
    ctl := Control.reset s1.params
    cfg := ConfigCtl.reset
    procId := 0
    standby := false
    dbg := { s1.dbg with halted := false }
    ipb := []
    ipbNext := none
    pipe := []
    nonseq := true
    pastTop := false
    bankHazard := false
    oldRoutes := []
    etmRun := none }

/-- DBGnTRST (R271, R622): the DCC flags and DbgAbt are 0, the other registers of the debug logic hold free values, the matches
chosen before are gone. Whether it ends debug state, and whether it clears a latched watchpoint (R72, R604), the spec does not
say: DESIGN CHOICE, log 44, each is kept or cleared by a free choice, and cleared where the new mode is monitor debug-mode, in
which neither exists (R606). -/
def debugReset (s : State) : State :=
  let n := s.free
  let monitor := Config.freeBit (n + 2)
  { s with
    dcc := { r := false, w := false, readData := Config.freeWord n, writeData := Config.freeWord (n + 1), dbgAbt := false }
    dbg := { monitor := monitor
             request := Config.freeBit (n + 3)
             statusT := Config.freeBit (n + 4)
             halted := s.dbg.halted && !monitor && Config.freeBit (n + 5)
             wptLatch := s.dbg.wptLatch && !monitor && Config.freeBit (n + 6)
             bkptMatch := false
             wptMatch := []
             takesBkpt := false
             pcView := s.dbg.pcView }
    free := n + 7 }

/-! ### The debugger -/

/-- A turn that only a debugger with DBGEN HIGH can take (R268, R610). -/
def debuggerTurn (ok : Bool) (s : State) (t : State) : Result :=
  if s.params.dbgen && ok then .next t else unpredictable .badTurn

/-- A turn that the debugger makes by an instruction of the halted core (R600): a core that is unrecoverable as well executes none
(R46, log 41), and nothing happens. -/
def haltedTurn (s : State) (t : State) : Result := debuggerTurn s.dbg.halted s (if s.unrecoverable then s else t)

/-- The core runs on with FIFOFULL HIGH only while it stays in the mode of the interrupt that got it going (R612). DESIGN CHOICE,
log 30: where FIFOFULL goes LOW and HIGH again in that mode, of which the spec says nothing, the core stalls again if a turn of
the running core saw it LOW, and runs on if it was LOW only in debug state or between two turns of the core. -/
def State.settle (s : State) : State :=
  if s.pins.fifofull && s.etmRun == some s.cpsr.m then s else { s with etmRun := none }

/-- The debugger takes the message of the program (R268 D1). -/
def dccTake (s : State) : Result :=
  debuggerTurn s.dcc.w s { s with dcc := { s.dcc with w := false }, dbgOut := some s.dcc.writeData }

/-- The debugger sends a message (R268 D2). -/
def dccSend (v : Word) (s : State) : Result :=
  debuggerTurn (!s.dcc.r) s { s with dcc := { s.dcc with readData := v, r := true } }

/-- The debugger writes the Debug Control Register (R600, R605, R606). Going to monitor debug-mode with the core halted or with a
halt-mode watchpoint latched mixes the two modes: refused (R607, U22), and so is a write that leaves in monitor debug-mode what
that mode forbids: a debug request (R605, U20), an external pin HIGH (R147). -/
def debugControl (monitor request takesBkpt : Bool) (s : State) : Result :=
  let t := { s with dbg := { s.dbg with monitor := monitor, request := request, takesBkpt := takesBkpt } }
  if monitor && (s.dbg.halted || s.dbg.wptLatch) then unpredictable .mixedModes
  else match t.monitorStop with
    | some u => unpredictable u
    | none => debuggerTurn true s t

/-- The watchpoint units of the full debug configuration will match (R601, R603, R604). -/
def debugMatch (bkpt : Bool) (wpt : List Bool) (s : State) : Result :=
  debuggerTurn s.params.fullDebug s { s with dbg := { s.dbg with bkptMatch := bkpt, wptMatch := wpt } }

/-- The address cleared for the state that the CPSR selects (R37). -/
def State.alignPc (s : State) (a : Word) : Word := clearLow (if s.cpsr.t then 1 else 2) a

/-- The debugger writes the CPSR of the halted core; the pc is kept aligned for the new state (R600, R37). -/
def debugCpsr (v : Word) (s : State) : Result :=
  let s1 := s.settle.putCpsr (Psr.ofWord v)
  haltedTurn s { s1 with pc := s1.alignPc s.pc }

/-- The debugger makes the halted core store; the core ignores aborts (R600, R602). The spec does not say which instruction makes this
store, and so not what R118 makes of an address that is not aligned for the size. DESIGN CHOICE, log 43: there is no alignment check,
whatever the A bit, an odd halfword address is not refused, and the address is aligned down. -/
def debugStore (a : Word) (size : Nat) (v : Word) (s : State) : Result :=
  if s.params.dbgen && s.dbg.halted && legalSize size then
    if s.unrecoverable then .next s
    else (writeData size s.priv false false a v s).finish id fun _ s1 => .next s1
  else unpredictable .badTurn

/-- What the debugger sees of a read (R14). -/
def State.show (s : State) (v : Word) : State := { s with dbgOut := some v }

/-- The debugger makes the halted core load (R600, R602); a load that is answered with an error, which the core ignores, brings a
free value (log 43). At an address that is not aligned for the size, where the spec does not say what R118 makes of it: DESIGN CHOICE,
log 43, there is no alignment check, whatever the A bit, an odd halfword address is not refused, the address is aligned down and what
is read is not rotated. -/
def debugLoad (a : Word) (size : Nat) (s : State) : Result :=
  if s.params.dbgen && s.dbg.halted && legalSize size then
    if s.unrecoverable then .next s
    else (readData size s.priv false a s).finish
      (fun s1 => { s1 with dbgOut := some (Config.freeWord s1.free), free := s1.free + 1 }) fun v s1 => .next (s1.show v)
  else unpredictable .badTurn

/-- The Debug Control Register: bits 4 and 1 (R65, R605, R606); the spec lays out no other bit, and they are those of `other`. -/
def Debug.controlWord (d : Debug) (other : Word) : Word :=
  (other &&& ~~~0x12) ||| (if d.monitor then 0x10 else 0) ||| (if d.request then 2 else 0)

/-- The Debug Status Register: bit 4 (R65, R602); the other bits are those of `other`. -/
def Debug.statusWord (d : Debug) (other : Word) : Word := (other &&& ~~~0x10) ||| (if d.statusT then 0x10 else 0)

/-- r15 as the debugger sees it in debug state (R604), aligned for the state (R37). -/
def State.pcSeen (s : State) : Word := s.alignPc s.dbg.pcView

/-- The debugger reads a register that the spec lays out in part; the other bits are free (R65, log 43). -/
def debugPartRead (s : State) (register : Word → Word) : Result :=
  debuggerTurn true s ({ s with free := s.free + 1 }.show (register (Config.freeWord s.free)))

/-- The debugger reads: the registers and the memory of the halted core, the Debug Control and Status Registers at any time
(R14, R65, R600, R602, R604). -/
def debugRead (d : DebugSource) (s : State) : Result :=
  match d with
  | .reg r => haltedTurn s (s.show (s.getPhys r))
  | .pc => haltedTurn s (s.show s.pcSeen)
  | .cpsr => haltedTurn s (s.show s.cpsr.toWord)
  | .spsr e => haltedTurn s (s.show (s.spsr e).toWord)
  | .mem a size => debugLoad a size s
  | .control => debugPartRead s s.dbg.controlWord
  | .status => debugPartRead s s.dbg.statusWord

/-- The CP15 register that an address of debug data chain 15 selects (R608): bit 37 is Opcode_1, bits 36 to 33 CRn, bit 32 bit 0 of
Opcode_2, whose other bits are 0. The chain does not carry CRm: it is c0, and c1 for the Configuration Control Register
(log 43). -/
def chain15Select (w : BitVec 39) : Option Cp15 :=
  let op1 := (w.extractLsb' 37 1).setWidth 3
  cp15Select op1 (w.extractLsb' 33 4) (if op1 = 1 then 1 else 0) ((w.extractLsb' 32 1).setWidth 3)

/-- The debugger reads or writes CP15 through debug data chain 15 while the core is halted (R248, R608); a write does what the
MCR does (R236), an address that selects nothing is refused as for an MCR or MRC. -/
def chain15 (w : BitVec 39) (s : State) : Result :=
  if s.params.dbgen && s.dbg.halted then
    match chain15Select w with
    | none => unpredictable .cpSelector
    | some r =>
      if w.getLsbD 38 then cp15Put r (w.setWidth 32) s
      else match s.cp15Read r with
        | some v => .next (s.show v)
        | none => unpredictable .cpSelector
  else unpredictable .badTurn

/-- The debugger restarts the core (R600, R602): at an address of its own, or at the pc, where an instruction that it scanned in has
put it (R604: SUB PC, PC, #20 after a watchpoint). With no such instruction the model goes on with the next instruction to
execute: DESIGN CHOICE, log 45; a mark past the top of the address space then stays (log 14). A Standby that a scanned-in
wait-for-interrupt has set stays: DESIGN CHOICE, log 31. -/
def debugRestart (a : Option Word) (s : State) : Result :=
  let go := State.branchTo { s with dbg := { s.dbg with halted := false } }
  debuggerTurn s.dbg.halted s (match a with
    | some a => go (s.alignPc a)
    | none => { go s.pc with pastTop := s.pastTop })

end Sys2Proof.Machine
end

