-- ==== Sys2Proof/Machine/Branch.lean ====
section
/-! DEFINITION. The ARM branch, status-register and trap instructions (spec/44_arm_branch_status.md), and the two
architecturally undefined ARM encodings (R195). -/

namespace Sys2Proof.Machine

/-- The target of B, BL and BLX(1): two instructions ahead plus the offset (R186). -/
def State.branchTarget (s : State) (off : BitVec 24) : Word := s.pc + 8 + branchOffset off

/-- The value MRS reads (R338): the CPSR, or the SPSR of the mode. `none`: User and System mode have no SPSR. -/
def State.statusWord (s : State) (r : Bool) : Option Word :=
  if r then (excMode s.cpsr.m).map fun e => (s.spsr e).toWord else some s.cpsr.toWord

/-- MRS (R338). The SPSR in User and System mode is UNPREDICTABLE (R338) and refused (U1). -/
def readStatus (r : Bool) (rd : Reg) (s : State) : Result :=
  match s.statusWord r with
  | some v => .next (s.setReg rd v).advance
  | none => unpredictable .noSpsr

/-- The bytes a field mask selects (R341). -/
def fieldMask (fm : BitVec 4) : Word :=
  (if fm.getLsbD 0 then 0x000000FF else 0) ||| (if fm.getLsbD 1 then 0x0000FF00 else 0) |||
    (if fm.getLsbD 2 then 0x00FF0000 else 0) ||| (if fm.getLsbD 3 then 0xFF000000 else 0)

/-- The bits MSR may write in the CPSR in a privileged mode: UserMask OR PrivMask (R341). -/
def privMask : Word := 0xF80000DF
/-- The bits MSR may write in the CPSR in User mode: UserMask (R341). -/
def userMask : Word := 0xF8000000
/-- The bits MSR may write in an SPSR: UserMask OR PrivMask OR StateMask (R341). -/
def spsrMask : Word := 0xF80000FF

/-- MSR (R341). The reserved bits are ignored (R47, U23, log 19). -/
def writeStatus (r : Bool) (fm : BitVec 4) (v : Word) (s : State) : Result :=
  if r then
    match excMode s.cpsr.m with
    | none => unpredictable .noSpsr
    | some e => .next (s.setSpsr e ((s.spsr e).write (fieldMask fm &&& spsrMask) v)).advance
  else if s.priv then
    if v.getLsbD 5 then unpredictable .msrSetsT
    else .next (s.putCpsr (s.cpsr.write (fieldMask fm &&& privMask) v)).advance
  else .next (State.advance { s with cpsr := s.cpsr.write (fieldMask fm &&& userMask) v })

/-- BKPT, ARM and Thumb (R345, R529, R548): debug state if a debugger in halt mode takes it, else Prefetch Abort (log 27). -/
def breakpoint (s : State) : State :=
  if s.bkptHalts then s.enterDebug else s.takeException .prefetchAbort

/-- B (R332). -/
def execB (c : Cond) (off : BitVec 24) (s : State) : Result :=
  conditional c s (.next (s.branchTo (s.branchTarget off)))

/-- BL (R332). -/
def execBl (c : Cond) (off : BitVec 24) (s : State) : Result :=
  conditional c s (.next ((s.setReg 14 (s.pc + 4)).branchTo (s.branchTarget off)))

/-- BLX(1) (R334). -/
def execBlxImm (h : Bool) (off : BitVec 24) (s : State) : Result :=
  .next (((s.setReg 14 (s.pc + 4)).setT true).branchTo (s.branchTarget off + (if h then 2 else 0)))

/-- BX (R335). -/
def execBx (c : Cond) (o : BitVec 12) (rm : Reg) (s : State) : Result :=
  conditional c s (guarded (bxCheck o) (writePcExchange (s.reg rm) s))

/-- BLX(2) (R336). -/
def execBlxReg (c : Cond) (o : BitVec 12) (rm : Reg) (s : State) : Result :=
  conditional c s (guarded (blxCheck o rm) (writePcExchange (s.reg rm) (s.setReg 14 (s.pc + 4))))

/-- MRS (R338). -/
def execMrs (c : Cond) (r : Bool) (o : BitVec 4) (rd : Reg) (z1 : BitVec 4) (z2 : BitVec 4) (s : State) : Result :=
  conditional c s (guarded (mrsCheck o rd z1 z2) (readStatus r rd s))

/-- MSR, register operand (R341). -/
def execMsrReg (c : Cond) (r : Bool) (fm : BitVec 4) (o : BitVec 4) (z : BitVec 4) (rm : Reg) (s : State) : Result :=
  conditional c s (guarded (msrCheck o z rm) (writeStatus r fm (s.reg rm) s))

/-- MSR, immediate operand (R341). -/
def execMsrImm (c : Cond) (r : Bool) (fm : BitVec 4) (o : BitVec 4) (rot : BitVec 4) (imm : BitVec 8) (s : State) : Result :=
  conditional c s (guarded (fieldCheck o 15) (writeStatus r fm (immOperand rot imm false).value s))

/-- SWI (R344). -/
def execSwi (c : Cond) (_imm : BitVec 24) (s : State) : Result :=
  conditional c s (.next (s.takeException .swi))

/-- BKPT (R345). -/
def execBkpt (_immHi : BitVec 12) (_immLo : BitVec 4) (s : State) : Result :=
  .next (breakpoint s)

/-- UNDEFINED, bits [27:25] = 011 with bit [4] = 1 (R195). -/
def execUndefMedia (c : Cond) (_ig1 : BitVec 20) (_ig2 : BitVec 4) (s : State) : Result :=
  conditional c s (.next (s.takeException .undef))

/-- UNDEFINED, bits [27:23] = 00110 with bits [21:20] = 00 (R195). -/
def execUndefMisc (c : Cond) (_ig1 : BitVec 1) (_ig2 : BitVec 20) (s : State) : Result :=
  conditional c s (.next (s.takeException .undef))

end Sys2Proof.Machine
end

