-- ==== Sys2Proof/Machine/DataProc.lean ====
section
/-! DEFINITION. The ARM data-processing instructions and CLZ (spec/42_arm_data_processing.md). -/

namespace Sys2Proof.Machine

/-- The sixteen operations (R175). -/
inductive DpOp where
  | and | eor | sub | rsb | add | adc | sbc | rsc | tst | teq | cmp | cmn | orr | mov | bic | mvn
deriving DecidableEq, Repr

/-- The result of the logical class, with its flags (R276). -/
def logicalResult (r : Word) (c : Bool) (p : Psr) : Word × Psr := (r, p.setLogical r c)

/-- The result of the addition and subtraction classes, with their flags (R276). -/
def arithResult (r : Sum) (p : Psr) : Word × Psr := (r.value, p.setArith r)

/-- The operation of a rule R278 to R293 on `n = R[Rn]` and the shifter operand, and the flags of R276. -/
def DpOp.eval (op : DpOp) (n : Word) (x : Shifted) (p : Psr) : Word × Psr :=
  match op with
  | .and => logicalResult (n &&& x.value) x.carry p
  | .eor => logicalResult (n ^^^ x.value) x.carry p
  | .sub => arithResult (addWithCarry n (~~~x.value) true) p
  | .rsb => arithResult (addWithCarry x.value (~~~n) true) p
  | .add => arithResult (addWithCarry n x.value false) p
  | .adc => arithResult (addWithCarry n x.value p.c) p
  | .sbc => arithResult (addWithCarry n (~~~x.value) p.c) p
  | .rsc => arithResult (addWithCarry x.value (~~~n) p.c) p
  | .tst => logicalResult (n &&& x.value) x.carry p
  | .teq => logicalResult (n ^^^ x.value) x.carry p
  | .cmp => arithResult (addWithCarry n (~~~x.value) true) p
  | .cmn => arithResult (addWithCarry n x.value false) p
  | .orr => logicalResult (n ||| x.value) x.carry p
  | .mov => logicalResult x.value x.carry p
  | .bic => logicalResult (n &&& ~~~x.value) x.carry p
  | .mvn => logicalResult (~~~x.value) x.carry p

/-- The rest of the frame of R275 for an operation with a destination: r15 by R277, else the register and, with S, the
flags. -/
def dataProcess (op : DpOp) (sf : Bool) (rd : Reg) (n : Word) (x : Shifted) (s : State) : Result :=
  let r := op.eval n x s.cpsr
  if rd = 15 then (if sf then exceptionReturn r.1 s else writePcArm r.1 s)
  else .next (State.setReg { s with cpsr := if sf then r.2 else s.cpsr } rd r.1).advance

/-- The rest of the frame of R275 for a compare: only the flags. -/
def dataCompare (op : DpOp) (n : Word) (x : Shifted) (s : State) : Result :=
  .next (State.advance { s with cpsr := (op.eval n x s.cpsr).2 })

/-- The shifter operand of the immediate-shift form (R177). -/
def State.shiftedImm (s : State) (sa : BitVec 5) (sh : Shift) (rm : Reg) : Shifted :=
  shiftByImm sh sa (s.reg rm) s.cpsr.c

/-- The shifter operand of the register-shift form (R178). -/
def State.shiftedReg (s : State) (rs : Reg) (sh : Shift) (rm : Reg) : Shifted :=
  shiftByReg sh (shiftAmount (s.reg rs)) (s.reg rm) s.cpsr.c

/-- AND, immediate operand (R278). -/
def execAndImm (c : Cond) (sf : Bool) (rn : Reg) (rd : Reg) (rot : BitVec 4) (imm : BitVec 8) (s : State) : Result :=
  conditional c s (dataProcess .and sf rd (s.reg rn) (immOperand rot imm s.cpsr.c) s)

/-- AND, register shifted by an immediate (R278). -/
def execAndShImm (c : Cond) (sf : Bool) (rn : Reg) (rd : Reg) (sa : BitVec 5) (sh : Shift) (rm : Reg) (s : State) : Result :=
  conditional c s (dataProcess .and sf rd (s.reg rn) (s.shiftedImm sa sh rm) s)

/-- AND, register shifted by a register (R278). -/
def execAndShReg (c : Cond) (sf : Bool) (rn : Reg) (rd : Reg) (rs : Reg) (sh : Shift) (rm : Reg) (s : State) : Result :=
  conditional c s (guarded (shRegCheck rn rd rs rm) (dataProcess .and sf rd (s.reg rn) (s.shiftedReg rs sh rm) s))

/-- EOR, immediate operand (R279). -/
def execEorImm (c : Cond) (sf : Bool) (rn : Reg) (rd : Reg) (rot : BitVec 4) (imm : BitVec 8) (s : State) : Result :=
  conditional c s (dataProcess .eor sf rd (s.reg rn) (immOperand rot imm s.cpsr.c) s)

/-- EOR, register shifted by an immediate (R279). -/
def execEorShImm (c : Cond) (sf : Bool) (rn : Reg) (rd : Reg) (sa : BitVec 5) (sh : Shift) (rm : Reg) (s : State) : Result :=
  conditional c s (dataProcess .eor sf rd (s.reg rn) (s.shiftedImm sa sh rm) s)

/-- EOR, register shifted by a register (R279). -/
def execEorShReg (c : Cond) (sf : Bool) (rn : Reg) (rd : Reg) (rs : Reg) (sh : Shift) (rm : Reg) (s : State) : Result :=
  conditional c s (guarded (shRegCheck rn rd rs rm) (dataProcess .eor sf rd (s.reg rn) (s.shiftedReg rs sh rm) s))

/-- SUB, immediate operand (R280). -/
def execSubImm (c : Cond) (sf : Bool) (rn : Reg) (rd : Reg) (rot : BitVec 4) (imm : BitVec 8) (s : State) : Result :=
  conditional c s (dataProcess .sub sf rd (s.reg rn) (immOperand rot imm s.cpsr.c) s)

/-- SUB, register shifted by an immediate (R280). -/
def execSubShImm (c : Cond) (sf : Bool) (rn : Reg) (rd : Reg) (sa : BitVec 5) (sh : Shift) (rm : Reg) (s : State) : Result :=
  conditional c s (dataProcess .sub sf rd (s.reg rn) (s.shiftedImm sa sh rm) s)

/-- SUB, register shifted by a register (R280). -/
def execSubShReg (c : Cond) (sf : Bool) (rn : Reg) (rd : Reg) (rs : Reg) (sh : Shift) (rm : Reg) (s : State) : Result :=
  conditional c s (guarded (shRegCheck rn rd rs rm) (dataProcess .sub sf rd (s.reg rn) (s.shiftedReg rs sh rm) s))

/-- RSB, immediate operand (R281). -/
def execRsbImm (c : Cond) (sf : Bool) (rn : Reg) (rd : Reg) (rot : BitVec 4) (imm : BitVec 8) (s : State) : Result :=
  conditional c s (dataProcess .rsb sf rd (s.reg rn) (immOperand rot imm s.cpsr.c) s)

/-- RSB, register shifted by an immediate (R281). -/
def execRsbShImm (c : Cond) (sf : Bool) (rn : Reg) (rd : Reg) (sa : BitVec 5) (sh : Shift) (rm : Reg) (s : State) : Result :=
  conditional c s (dataProcess .rsb sf rd (s.reg rn) (s.shiftedImm sa sh rm) s)

/-- RSB, register shifted by a register (R281). -/
def execRsbShReg (c : Cond) (sf : Bool) (rn : Reg) (rd : Reg) (rs : Reg) (sh : Shift) (rm : Reg) (s : State) : Result :=
  conditional c s (guarded (shRegCheck rn rd rs rm) (dataProcess .rsb sf rd (s.reg rn) (s.shiftedReg rs sh rm) s))

/-- ADD, immediate operand (R282). -/
def execAddImm (c : Cond) (sf : Bool) (rn : Reg) (rd : Reg) (rot : BitVec 4) (imm : BitVec 8) (s : State) : Result :=
  conditional c s (dataProcess .add sf rd (s.reg rn) (immOperand rot imm s.cpsr.c) s)

/-- ADD, register shifted by an immediate (R282). -/
def execAddShImm (c : Cond) (sf : Bool) (rn : Reg) (rd : Reg) (sa : BitVec 5) (sh : Shift) (rm : Reg) (s : State) : Result :=
  conditional c s (dataProcess .add sf rd (s.reg rn) (s.shiftedImm sa sh rm) s)

/-- ADD, register shifted by a register (R282). -/
def execAddShReg (c : Cond) (sf : Bool) (rn : Reg) (rd : Reg) (rs : Reg) (sh : Shift) (rm : Reg) (s : State) : Result :=
  conditional c s (guarded (shRegCheck rn rd rs rm) (dataProcess .add sf rd (s.reg rn) (s.shiftedReg rs sh rm) s))

/-- ADC, immediate operand (R283). -/
def execAdcImm (c : Cond) (sf : Bool) (rn : Reg) (rd : Reg) (rot : BitVec 4) (imm : BitVec 8) (s : State) : Result :=
  conditional c s (dataProcess .adc sf rd (s.reg rn) (immOperand rot imm s.cpsr.c) s)

/-- ADC, register shifted by an immediate (R283). -/
def execAdcShImm (c : Cond) (sf : Bool) (rn : Reg) (rd : Reg) (sa : BitVec 5) (sh : Shift) (rm : Reg) (s : State) : Result :=
  conditional c s (dataProcess .adc sf rd (s.reg rn) (s.shiftedImm sa sh rm) s)

/-- ADC, register shifted by a register (R283). -/
def execAdcShReg (c : Cond) (sf : Bool) (rn : Reg) (rd : Reg) (rs : Reg) (sh : Shift) (rm : Reg) (s : State) : Result :=
  conditional c s (guarded (shRegCheck rn rd rs rm) (dataProcess .adc sf rd (s.reg rn) (s.shiftedReg rs sh rm) s))

/-- SBC, immediate operand (R284). -/
def execSbcImm (c : Cond) (sf : Bool) (rn : Reg) (rd : Reg) (rot : BitVec 4) (imm : BitVec 8) (s : State) : Result :=
  conditional c s (dataProcess .sbc sf rd (s.reg rn) (immOperand rot imm s.cpsr.c) s)

/-- SBC, register shifted by an immediate (R284). -/
def execSbcShImm (c : Cond) (sf : Bool) (rn : Reg) (rd : Reg) (sa : BitVec 5) (sh : Shift) (rm : Reg) (s : State) : Result :=
  conditional c s (dataProcess .sbc sf rd (s.reg rn) (s.shiftedImm sa sh rm) s)

/-- SBC, register shifted by a register (R284). -/
def execSbcShReg (c : Cond) (sf : Bool) (rn : Reg) (rd : Reg) (rs : Reg) (sh : Shift) (rm : Reg) (s : State) : Result :=
  conditional c s (guarded (shRegCheck rn rd rs rm) (dataProcess .sbc sf rd (s.reg rn) (s.shiftedReg rs sh rm) s))

/-- RSC, immediate operand (R285). -/
def execRscImm (c : Cond) (sf : Bool) (rn : Reg) (rd : Reg) (rot : BitVec 4) (imm : BitVec 8) (s : State) : Result :=
  conditional c s (dataProcess .rsc sf rd (s.reg rn) (immOperand rot imm s.cpsr.c) s)

/-- RSC, register shifted by an immediate (R285). -/
def execRscShImm (c : Cond) (sf : Bool) (rn : Reg) (rd : Reg) (sa : BitVec 5) (sh : Shift) (rm : Reg) (s : State) : Result :=
  conditional c s (dataProcess .rsc sf rd (s.reg rn) (s.shiftedImm sa sh rm) s)

/-- RSC, register shifted by a register (R285). -/
def execRscShReg (c : Cond) (sf : Bool) (rn : Reg) (rd : Reg) (rs : Reg) (sh : Shift) (rm : Reg) (s : State) : Result :=
  conditional c s (guarded (shRegCheck rn rd rs rm) (dataProcess .rsc sf rd (s.reg rn) (s.shiftedReg rs sh rm) s))

/-- TST, immediate operand (R286). -/
def execTstImm (c : Cond) (rn : Reg) (z : BitVec 4) (rot : BitVec 4) (imm : BitVec 8) (s : State) : Result :=
  conditional c s (guarded (fieldCheck z 0) (dataCompare .tst (s.reg rn) (immOperand rot imm s.cpsr.c) s))

/-- TST, register shifted by an immediate (R286). -/
def execTstShImm (c : Cond) (rn : Reg) (z : BitVec 4) (sa : BitVec 5) (sh : Shift) (rm : Reg) (s : State) : Result :=
  conditional c s (guarded (fieldCheck z 0) (dataCompare .tst (s.reg rn) (s.shiftedImm sa sh rm) s))

/-- TST, register shifted by a register (R286). -/
def execTstShReg (c : Cond) (rn : Reg) (z : BitVec 4) (rs : Reg) (sh : Shift) (rm : Reg) (s : State) : Result :=
  conditional c s (guarded (shRegCheckZ z rn rs rm) (dataCompare .tst (s.reg rn) (s.shiftedReg rs sh rm) s))

/-- TEQ, immediate operand (R287). -/
def execTeqImm (c : Cond) (rn : Reg) (z : BitVec 4) (rot : BitVec 4) (imm : BitVec 8) (s : State) : Result :=
  conditional c s (guarded (fieldCheck z 0) (dataCompare .teq (s.reg rn) (immOperand rot imm s.cpsr.c) s))

/-- TEQ, register shifted by an immediate (R287). -/
def execTeqShImm (c : Cond) (rn : Reg) (z : BitVec 4) (sa : BitVec 5) (sh : Shift) (rm : Reg) (s : State) : Result :=
  conditional c s (guarded (fieldCheck z 0) (dataCompare .teq (s.reg rn) (s.shiftedImm sa sh rm) s))

/-- TEQ, register shifted by a register (R287). -/
def execTeqShReg (c : Cond) (rn : Reg) (z : BitVec 4) (rs : Reg) (sh : Shift) (rm : Reg) (s : State) : Result :=
  conditional c s (guarded (shRegCheckZ z rn rs rm) (dataCompare .teq (s.reg rn) (s.shiftedReg rs sh rm) s))

/-- CMP, immediate operand (R288). -/
def execCmpImm (c : Cond) (rn : Reg) (z : BitVec 4) (rot : BitVec 4) (imm : BitVec 8) (s : State) : Result :=
  conditional c s (guarded (fieldCheck z 0) (dataCompare .cmp (s.reg rn) (immOperand rot imm s.cpsr.c) s))

/-- CMP, register shifted by an immediate (R288). -/
def execCmpShImm (c : Cond) (rn : Reg) (z : BitVec 4) (sa : BitVec 5) (sh : Shift) (rm : Reg) (s : State) : Result :=
  conditional c s (guarded (fieldCheck z 0) (dataCompare .cmp (s.reg rn) (s.shiftedImm sa sh rm) s))

/-- CMP, register shifted by a register (R288). -/
def execCmpShReg (c : Cond) (rn : Reg) (z : BitVec 4) (rs : Reg) (sh : Shift) (rm : Reg) (s : State) : Result :=
  conditional c s (guarded (shRegCheckZ z rn rs rm) (dataCompare .cmp (s.reg rn) (s.shiftedReg rs sh rm) s))

/-- CMN, immediate operand (R289). -/
def execCmnImm (c : Cond) (rn : Reg) (z : BitVec 4) (rot : BitVec 4) (imm : BitVec 8) (s : State) : Result :=
  conditional c s (guarded (fieldCheck z 0) (dataCompare .cmn (s.reg rn) (immOperand rot imm s.cpsr.c) s))

/-- CMN, register shifted by an immediate (R289). -/
def execCmnShImm (c : Cond) (rn : Reg) (z : BitVec 4) (sa : BitVec 5) (sh : Shift) (rm : Reg) (s : State) : Result :=
  conditional c s (guarded (fieldCheck z 0) (dataCompare .cmn (s.reg rn) (s.shiftedImm sa sh rm) s))

/-- CMN, register shifted by a register (R289). -/
def execCmnShReg (c : Cond) (rn : Reg) (z : BitVec 4) (rs : Reg) (sh : Shift) (rm : Reg) (s : State) : Result :=
  conditional c s (guarded (shRegCheckZ z rn rs rm) (dataCompare .cmn (s.reg rn) (s.shiftedReg rs sh rm) s))

/-- ORR, immediate operand (R290). -/
def execOrrImm (c : Cond) (sf : Bool) (rn : Reg) (rd : Reg) (rot : BitVec 4) (imm : BitVec 8) (s : State) : Result :=
  conditional c s (dataProcess .orr sf rd (s.reg rn) (immOperand rot imm s.cpsr.c) s)

/-- ORR, register shifted by an immediate (R290). -/
def execOrrShImm (c : Cond) (sf : Bool) (rn : Reg) (rd : Reg) (sa : BitVec 5) (sh : Shift) (rm : Reg) (s : State) : Result :=
  conditional c s (dataProcess .orr sf rd (s.reg rn) (s.shiftedImm sa sh rm) s)

/-- ORR, register shifted by a register (R290). -/
def execOrrShReg (c : Cond) (sf : Bool) (rn : Reg) (rd : Reg) (rs : Reg) (sh : Shift) (rm : Reg) (s : State) : Result :=
  conditional c s (guarded (shRegCheck rn rd rs rm) (dataProcess .orr sf rd (s.reg rn) (s.shiftedReg rs sh rm) s))

/-- MOV, immediate operand (R291). -/
def execMovImm (c : Cond) (sf : Bool) (z : BitVec 4) (rd : Reg) (rot : BitVec 4) (imm : BitVec 8) (s : State) : Result :=
  conditional c s (guarded (fieldCheck z 0) (dataProcess .mov sf rd 0 (immOperand rot imm s.cpsr.c) s))

/-- MOV, register shifted by an immediate (R291). -/
def execMovShImm (c : Cond) (sf : Bool) (z : BitVec 4) (rd : Reg) (sa : BitVec 5) (sh : Shift) (rm : Reg) (s : State) : Result :=
  conditional c s (guarded (fieldCheck z 0) (dataProcess .mov sf rd 0 (s.shiftedImm sa sh rm) s))

/-- MOV, register shifted by a register (R291). -/
def execMovShReg (c : Cond) (sf : Bool) (z : BitVec 4) (rd : Reg) (rs : Reg) (sh : Shift) (rm : Reg) (s : State) : Result :=
  conditional c s (guarded (shRegCheckZ z rd rs rm) (dataProcess .mov sf rd 0 (s.shiftedReg rs sh rm) s))

/-- BIC, immediate operand (R292). -/
def execBicImm (c : Cond) (sf : Bool) (rn : Reg) (rd : Reg) (rot : BitVec 4) (imm : BitVec 8) (s : State) : Result :=
  conditional c s (dataProcess .bic sf rd (s.reg rn) (immOperand rot imm s.cpsr.c) s)

/-- BIC, register shifted by an immediate (R292). -/
def execBicShImm (c : Cond) (sf : Bool) (rn : Reg) (rd : Reg) (sa : BitVec 5) (sh : Shift) (rm : Reg) (s : State) : Result :=
  conditional c s (dataProcess .bic sf rd (s.reg rn) (s.shiftedImm sa sh rm) s)

/-- BIC, register shifted by a register (R292). -/
def execBicShReg (c : Cond) (sf : Bool) (rn : Reg) (rd : Reg) (rs : Reg) (sh : Shift) (rm : Reg) (s : State) : Result :=
  conditional c s (guarded (shRegCheck rn rd rs rm) (dataProcess .bic sf rd (s.reg rn) (s.shiftedReg rs sh rm) s))

/-- MVN, immediate operand (R293). -/
def execMvnImm (c : Cond) (sf : Bool) (z : BitVec 4) (rd : Reg) (rot : BitVec 4) (imm : BitVec 8) (s : State) : Result :=
  conditional c s (guarded (fieldCheck z 0) (dataProcess .mvn sf rd 0 (immOperand rot imm s.cpsr.c) s))

/-- MVN, register shifted by an immediate (R293). -/
def execMvnShImm (c : Cond) (sf : Bool) (z : BitVec 4) (rd : Reg) (sa : BitVec 5) (sh : Shift) (rm : Reg) (s : State) : Result :=
  conditional c s (guarded (fieldCheck z 0) (dataProcess .mvn sf rd 0 (s.shiftedImm sa sh rm) s))

/-- MVN, register shifted by a register (R293). -/
def execMvnShReg (c : Cond) (sf : Bool) (z : BitVec 4) (rd : Reg) (rs : Reg) (sh : Shift) (rm : Reg) (s : State) : Result :=
  conditional c s (guarded (shRegCheckZ z rd rs rm) (dataProcess .mvn sf rd 0 (s.shiftedReg rs sh rm) s))

/-- CLZ (R294). -/
def execClz (c : Cond) (o1 : BitVec 4) (rd : Reg) (o2 : BitVec 4) (rm : Reg) (s : State) : Result :=
  conditional c s (guarded (clzCheck o1 rd o2 rm)
    (.next (s.setReg rd (countLeadingZeros (s.reg rm))).advance))

end Sys2Proof.Machine
end

