-- ==== Sys2Proof/Machine/LoadStore.lean ====
section
/-! DEFINITION. The ARM single-register loads and stores and PLD (spec/45_arm_load_store.md). -/

namespace Sys2Proof.Machine

/-- The address of an immediate-offset form of addressing mode 2 (R182). -/
def State.mode2Imm (s : State) (p u w : Bool) (rn : Reg) (off : BitVec 12) : Address :=
  addressing p u w (s.reg rn) (offset12 off)

/-- The address of a register-offset form of addressing mode 2 (R182, R177). -/
def State.mode2Reg (s : State) (p u w : Bool) (rn : Reg) (sa : BitVec 5) (sh : Shift) (rm : Reg) : Address :=
  addressing p u w (s.reg rn) (shiftByImm sh sa (s.reg rm) s.cpsr.c).value

/-- The address of an immediate-offset form of addressing mode 3 (R183). -/
def State.mode3Imm (s : State) (p u w : Bool) (rn : Reg) (immH immL : BitVec 4) : Address :=
  addressing p u w (s.reg rn) (offset8 immH immL)

/-- The address of a register-offset form of addressing mode 3 (R183). -/
def State.mode3Reg (s : State) (p u w : Bool) (rn rm : Reg) : Address := addressing p u w (s.reg rn) (s.reg rm)

/-- A doubleword address that is not a multiple of 8 (R118, R370): a Data Abort with A = 1, refused with A = 0. -/
def doubleMisaligned (a : Word) : Bool := misaligned 8 a

/-- LDRD (R370, R351): two words, then the write-back, then the two registers. -/
def loadDouble (rn rd : Reg) (x : Address) (s : State) : Result :=
  let place := physReg s.cpsr.m
  let onAbort := abortedLoad (physReg? s.cpsr.m rn) place [rd, rd + 1]
  if doubleMisaligned x.addr then (if s.ctl.a then .next (onAbort s) else unpredictable .misalignedDouble)
  else (loadWords s.priv 2 x.addr s).finish onAbort fun vs s1 =>
    .next ((match x.wb with | some w => s1.setReg rn w | none => s1).writeRegs place [rd, rd + 1] vs).advance

/-- STRD (R371): two words, then the write-back. -/
def storeDouble (rn rd : Reg) (x : Address) (s : State) : Result :=
  if doubleMisaligned x.addr then (if s.ctl.a then .next s.dataAbort else unpredictable .misalignedDouble)
  else (storeWords s.priv false [s.reg rd, s.reg (rd + 1)] x.addr s).finish State.dataAbort fun _ s1 =>
    .next (match x.wb with | some w => s1.setReg rn w | none => s1).advance

/-- LDR, immediate offset (R352). -/
def execLdrImm (c : Cond) (p : Bool) (u : Bool) (w : Bool) (rn : Reg) (rd : Reg) (off : BitVec 12) (s : State) : Result :=
  conditional c s (guarded (mode2ImmCheck false p w rn rd)
    (loadSingle .word s.priv rn rd (s.mode2Imm p u w rn off) s))

/-- LDR, register offset (R352). -/
def execLdrReg (c : Cond) (p : Bool) (u : Bool) (w : Bool) (rn : Reg) (rd : Reg) (sa : BitVec 5) (sh : Shift) (rm : Reg) (s : State) : Result :=
  conditional c s (guarded (mode2RegCheck false p w rn rd rm)
    (loadSingle .word s.priv rn rd (s.mode2Reg p u w rn sa sh rm) s))

/-- STR, immediate offset (R355). -/
def execStrImm (c : Cond) (p : Bool) (u : Bool) (w : Bool) (rn : Reg) (rd : Reg) (off : BitVec 12) (s : State) : Result :=
  conditional c s (guarded (mode2ImmCheck false p w rn rd)
    (storeSingle 4 s.priv rn (s.mode2Imm p u w rn off) (s.stored rd) s))

/-- STR, register offset (R355). -/
def execStrReg (c : Cond) (p : Bool) (u : Bool) (w : Bool) (rn : Reg) (rd : Reg) (sa : BitVec 5) (sh : Shift) (rm : Reg) (s : State) : Result :=
  conditional c s (guarded (mode2RegCheck false p w rn rd rm)
    (storeSingle 4 s.priv rn (s.mode2Reg p u w rn sa sh rm) (s.stored rd) s))

/-- LDRB, immediate offset (R357). -/
def execLdrbImm (c : Cond) (p : Bool) (u : Bool) (w : Bool) (rn : Reg) (rd : Reg) (off : BitVec 12) (s : State) : Result :=
  conditional c s (guarded (mode2ImmCheck true p w rn rd)
    (loadSingle .byte s.priv rn rd (s.mode2Imm p u w rn off) s))

/-- LDRB, register offset (R357). -/
def execLdrbReg (c : Cond) (p : Bool) (u : Bool) (w : Bool) (rn : Reg) (rd : Reg) (sa : BitVec 5) (sh : Shift) (rm : Reg) (s : State) : Result :=
  conditional c s (guarded (mode2RegCheck true p w rn rd rm)
    (loadSingle .byte s.priv rn rd (s.mode2Reg p u w rn sa sh rm) s))

/-- STRB, immediate offset (R358). -/
def execStrbImm (c : Cond) (p : Bool) (u : Bool) (w : Bool) (rn : Reg) (rd : Reg) (off : BitVec 12) (s : State) : Result :=
  conditional c s (guarded (mode2ImmCheck true p w rn rd)
    (storeSingle 1 s.priv rn (s.mode2Imm p u w rn off) (s.reg rd) s))

/-- STRB, register offset (R358). -/
def execStrbReg (c : Cond) (p : Bool) (u : Bool) (w : Bool) (rn : Reg) (rd : Reg) (sa : BitVec 5) (sh : Shift) (rm : Reg) (s : State) : Result :=
  conditional c s (guarded (mode2RegCheck true p w rn rd rm)
    (storeSingle 1 s.priv rn (s.mode2Reg p u w rn sa sh rm) (s.reg rd) s))

/-- LDRT, immediate offset (R360). -/
def execLdrtImm (c : Cond) (u : Bool) (rn : Reg) (rd : Reg) (off : BitVec 12) (s : State) : Result :=
  conditional c s (guarded (mode2ImmCheck true false true rn rd)
    (loadSingle .word false rn rd (s.mode2Imm false u true rn off) s))

/-- LDRT, register offset (R360). -/
def execLdrtReg (c : Cond) (u : Bool) (rn : Reg) (rd : Reg) (sa : BitVec 5) (sh : Shift) (rm : Reg) (s : State) : Result :=
  conditional c s (guarded (mode2RegCheck true false true rn rd rm)
    (loadSingle .word false rn rd (s.mode2Reg false u true rn sa sh rm) s))

/-- STRT, immediate offset (R361). -/
def execStrtImm (c : Cond) (u : Bool) (rn : Reg) (rd : Reg) (off : BitVec 12) (s : State) : Result :=
  conditional c s (guarded (mode2ImmCheck true false true rn rd)
    (storeSingle 4 false rn (s.mode2Imm false u true rn off) (s.stored rd) s))

/-- STRT, register offset (R361). -/
def execStrtReg (c : Cond) (u : Bool) (rn : Reg) (rd : Reg) (sa : BitVec 5) (sh : Shift) (rm : Reg) (s : State) : Result :=
  conditional c s (guarded (mode2RegCheck true false true rn rd rm)
    (storeSingle 4 false rn (s.mode2Reg false u true rn sa sh rm) (s.stored rd) s))

/-- LDRBT, immediate offset (R363). -/
def execLdrbtImm (c : Cond) (u : Bool) (rn : Reg) (rd : Reg) (off : BitVec 12) (s : State) : Result :=
  conditional c s (guarded (mode2ImmCheck true false true rn rd)
    (loadSingle .byte false rn rd (s.mode2Imm false u true rn off) s))

/-- LDRBT, register offset (R363). -/
def execLdrbtReg (c : Cond) (u : Bool) (rn : Reg) (rd : Reg) (sa : BitVec 5) (sh : Shift) (rm : Reg) (s : State) : Result :=
  conditional c s (guarded (mode2RegCheck true false true rn rd rm)
    (loadSingle .byte false rn rd (s.mode2Reg false u true rn sa sh rm) s))

/-- STRBT, immediate offset (R364). -/
def execStrbtImm (c : Cond) (u : Bool) (rn : Reg) (rd : Reg) (off : BitVec 12) (s : State) : Result :=
  conditional c s (guarded (mode2ImmCheck true false true rn rd)
    (storeSingle 1 false rn (s.mode2Imm false u true rn off) (s.reg rd) s))

/-- STRBT, register offset (R364). -/
def execStrbtReg (c : Cond) (u : Bool) (rn : Reg) (rd : Reg) (sa : BitVec 5) (sh : Shift) (rm : Reg) (s : State) : Result :=
  conditional c s (guarded (mode2RegCheck true false true rn rd rm)
    (storeSingle 1 false rn (s.mode2Reg false u true rn sa sh rm) (s.reg rd) s))

/-- LDRH, immediate offset (R366). -/
def execLdrhImm (c : Cond) (p : Bool) (u : Bool) (w : Bool) (rn : Reg) (rd : Reg) (immH : BitVec 4) (immL : BitVec 4) (s : State) : Result :=
  conditional c s (guarded (mode3ImmCheck p w rn rd)
    (loadSingle .half s.priv rn rd (s.mode3Imm p u w rn immH immL) s))

/-- LDRH, register offset (R366). -/
def execLdrhReg (c : Cond) (p : Bool) (u : Bool) (w : Bool) (rn : Reg) (rd : Reg) (z : BitVec 4) (rm : Reg) (s : State) : Result :=
  conditional c s (guarded (mode3RegCheck p w rn rd z rm)
    (loadSingle .half s.priv rn rd (s.mode3Reg p u w rn rm) s))

/-- STRH, immediate offset (R367). -/
def execStrhImm (c : Cond) (p : Bool) (u : Bool) (w : Bool) (rn : Reg) (rd : Reg) (immH : BitVec 4) (immL : BitVec 4) (s : State) : Result :=
  conditional c s (guarded (mode3ImmCheck p w rn rd)
    (storeSingle 2 s.priv rn (s.mode3Imm p u w rn immH immL) (s.reg rd) s))

/-- STRH, register offset (R367). -/
def execStrhReg (c : Cond) (p : Bool) (u : Bool) (w : Bool) (rn : Reg) (rd : Reg) (z : BitVec 4) (rm : Reg) (s : State) : Result :=
  conditional c s (guarded (mode3RegCheck p w rn rd z rm)
    (storeSingle 2 s.priv rn (s.mode3Reg p u w rn rm) (s.reg rd) s))

/-- LDRSB, immediate offset (R368). -/
def execLdrsbImm (c : Cond) (p : Bool) (u : Bool) (w : Bool) (rn : Reg) (rd : Reg) (immH : BitVec 4) (immL : BitVec 4) (s : State) : Result :=
  conditional c s (guarded (mode3ImmCheck p w rn rd)
    (loadSingle .signedByte s.priv rn rd (s.mode3Imm p u w rn immH immL) s))

/-- LDRSB, register offset (R368). -/
def execLdrsbReg (c : Cond) (p : Bool) (u : Bool) (w : Bool) (rn : Reg) (rd : Reg) (z : BitVec 4) (rm : Reg) (s : State) : Result :=
  conditional c s (guarded (mode3RegCheck p w rn rd z rm)
    (loadSingle .signedByte s.priv rn rd (s.mode3Reg p u w rn rm) s))

/-- LDRSH, immediate offset (R369). -/
def execLdrshImm (c : Cond) (p : Bool) (u : Bool) (w : Bool) (rn : Reg) (rd : Reg) (immH : BitVec 4) (immL : BitVec 4) (s : State) : Result :=
  conditional c s (guarded (mode3ImmCheck p w rn rd)
    (loadSingle .signedHalf s.priv rn rd (s.mode3Imm p u w rn immH immL) s))

/-- LDRSH, register offset (R369). -/
def execLdrshReg (c : Cond) (p : Bool) (u : Bool) (w : Bool) (rn : Reg) (rd : Reg) (z : BitVec 4) (rm : Reg) (s : State) : Result :=
  conditional c s (guarded (mode3RegCheck p w rn rd z rm)
    (loadSingle .signedHalf s.priv rn rd (s.mode3Reg p u w rn rm) s))

/-- LDRD, immediate offset (R370). -/
def execLdrdImm (c : Cond) (p : Bool) (u : Bool) (w : Bool) (rn : Reg) (rd : Reg) (immH : BitVec 4) (immL : BitVec 4) (s : State) : Result :=
  conditional c s (guarded (ldrdImmCheck p w rn rd)
    (loadDouble rn rd (s.mode3Imm p u w rn immH immL) s))

/-- LDRD, register offset (R370). -/
def execLdrdReg (c : Cond) (p : Bool) (u : Bool) (w : Bool) (rn : Reg) (rd : Reg) (z : BitVec 4) (rm : Reg) (s : State) : Result :=
  conditional c s (guarded (ldrdRegCheck p w rn rd z rm)
    (loadDouble rn rd (s.mode3Reg p u w rn rm) s))

/-- STRD, immediate offset (R371). -/
def execStrdImm (c : Cond) (p : Bool) (u : Bool) (w : Bool) (rn : Reg) (rd : Reg) (immH : BitVec 4) (immL : BitVec 4) (s : State) : Result :=
  conditional c s (guarded (strdImmCheck p w rn rd)
    (storeDouble rn rd (s.mode3Imm p u w rn immH immL) s))

/-- STRD, register offset (R371). -/
def execStrdReg (c : Cond) (p : Bool) (u : Bool) (w : Bool) (rn : Reg) (rd : Reg) (z : BitVec 4) (rm : Reg) (s : State) : Result :=
  conditional c s (guarded (strdRegCheck p w rn rd z rm)
    (storeDouble rn rd (s.mode3Reg p u w rn rm) s))

/-- PLD, immediate offset: a hint without effect (R378). -/
def execPldImm (_u : Bool) (_rn : Reg) (_off : BitVec 12) (s : State) : Result :=
  .next s.advance

/-- PLD, register offset: a hint without effect (R378). -/
def execPldReg (_u : Bool) (_rn : Reg) (_sa : BitVec 5) (_sh : Shift) (rm : Reg) (s : State) : Result :=
  guarded (noPcCheck rm) (.next s.advance)

end Sys2Proof.Machine
end

