-- ==== Sys2Proof/Machine/LoadStoreMultiple.lean ====
section
/-! DEFINITION. The ARM load and store multiple and swap instructions (spec/46_arm_load_store_multiple.md), and the shared
transfers of the Thumb multiple forms. -/

namespace Sys2Proof.Machine

/-- A load multiple (R385, R387, R388 to R390, R501, R502): words, registers, write-back, then the pc by `writePc` or the
advance. `place` maps an index to its physical register, `hazard` marks LDM(2) (R656). -/
def loadMultiple (place : Reg → PhysReg) (hazard : Bool) (rn : Reg) (list : BitVec 16) (start : Word) (wb : Option Word)
    (writePc : Word → State → Result) (s : State) : Result :=
  (loadWords s.priv (listed list).length start s).finish (abortedLoad (physReg? s.cpsr.m rn) place (listed list))
    fun vs s1 =>
      let s2 := s1.writeRegs place (listed list) vs
      let s3 := match wb with | some w => s2.setReg rn w | none => s2
      if list.getLsbD 15 then writePc (vs.getLastD 0) s3
      else .next { s3.advance with bankHazard := hazard }

/-- A store multiple (R385, R387, R391, R392, R500, R503): words, then write-back. `draw` says that one stored word is a
free value (R386). -/
def storeMultiple (value : Reg → Word) (draw hazard : Bool) (rn : Reg) (list : BitVec 16) (start : Word)
    (wb : Option Word) (s : State) : Result :=
  (storeWords s.priv false ((listed list).map value) start
      { s with free := if draw then s.free + 1 else s.free }).finish State.dataAbort fun _ s1 =>
    .next { (match wb with | some w => s1.setReg rn w | none => s1).advance with bankHazard := hazard }

/-- The value STM(2) stores for an index (R392). -/
def State.storedUser (s : State) (r : Reg) : Word := if r = 15 then s.storedPc else s.getPhys (userReg r)

/-- A refusal in the modes that have no SPSR and no User bank of their own (R389, R392). -/
def bankedModeOnly (s : State) (k : Result) : Result :=
  match excMode s.cpsr.m with
  | none => unpredictable .noSpsr
  | some _ => k

/-- The written-back base of a form with a W bit (R385). -/
def backIf (w u : Bool) (n : Nat) (b : Word) : Option Word := if w then some (multiBack u n b) else none

/-- The number of listed registers (R385). -/
def listCount (list : BitVec 16) : Nat := (listed list).length

/-- The other agents between the two halves of a swap: at an AHB address the bus is locked (R148), at a TCM address it is not
atomic against the DMA master (R396, D18). -/
def State.swapPause (s : State) (a : Word) : Acc Unit := s.pause (s.dataPort a == .ahb)

/-- A swap (R396, R397, R148): a read and a write at one address, then the register. -/
def swapData (k : LoadKind) (rn rd rm : Reg) (s : State) : Result :=
  let a := s.reg rn
  (loadData k.size s.priv true a s).finish State.dataAbort fun data s1 =>
    ((s1.swapPause a).bind fun _ s2 => storeData k.size s.priv false true a (s.reg rm) s2).finish State.dataAbort fun _ s3 =>
      .next (s3.setReg rd (k.extend a data)).advance

/-- LDM(1) (R388). -/
def execLdm1 (c : Cond) (p : Bool) (u : Bool) (w : Bool) (rn : Reg) (list : BitVec 16) (s : State) : Result :=
  conditional c s (guarded (ldmCheck w rn list)
    (loadMultiple (physReg s.cpsr.m) false rn list (multiStart p u (listCount list) (s.reg rn))
      (backIf w u (listCount list) (s.reg rn)) loadPc s))

/-- LDM(2) (R389). -/
def execLdm2 (c : Cond) (p : Bool) (u : Bool) (z : BitVec 1) (rn : Reg) (list : BitVec 15) (s : State) : Result :=
  let l := (0#1 ++ list : BitVec 16)
  conditional c s (guarded (userListCheck z rn l) (bankedModeOnly s
    (loadMultiple userReg true rn l (multiStart p u (listCount l) (s.reg rn)) none loadPc s)))

/-- LDM(3) (R390). -/
def execLdm3 (c : Cond) (p : Bool) (u : Bool) (w : Bool) (rn : Reg) (list : BitVec 15) (s : State) : Result :=
  let l := (1#1 ++ list : BitVec 16)
  conditional c s (guarded (ldmCheck w rn l) (bankedModeOnly s
    (loadMultiple (physReg s.cpsr.m) false rn l (multiStart p u (listCount l) (s.reg rn))
      (backIf w u (listCount l) (s.reg rn)) exceptionReturn s)))

/-- STM(1) (R391). -/
def execStm1 (c : Cond) (p : Bool) (u : Bool) (w : Bool) (rn : Reg) (list : BitVec 16) (s : State) : Result :=
  conditional c s (guarded (stmCheck rn list)
    (storeMultiple (s.storedWord w rn list) (freeBase w rn list) false rn list
      (multiStart p u (listCount list) (s.reg rn)) (backIf w u (listCount list) (s.reg rn)) s))

/-- STM(2) (R392). -/
def execStm2 (c : Cond) (p : Bool) (u : Bool) (z : BitVec 1) (rn : Reg) (list : BitVec 16) (s : State) : Result :=
  conditional c s (guarded (userListCheck z rn list) (bankedModeOnly s
    (storeMultiple s.storedUser false true rn list (multiStart p u (listCount list) (s.reg rn)) none s)))

/-- SWP (R396). -/
def execSwp (c : Cond) (rn : Reg) (rd : Reg) (z : BitVec 4) (rm : Reg) (s : State) : Result :=
  conditional c s (guarded (swapCheck rn rd z rm) (swapData .word rn rd rm s))

/-- SWPB (R397). -/
def execSwpb (c : Cond) (rn : Reg) (rd : Reg) (z : BitVec 4) (rm : Reg) (s : State) : Result :=
  conditional c s (guarded (swapCheck rn rd z rm) (swapData .byte rn rd rm s))

end Sys2Proof.Machine
end

