-- ==== Sys2Proof/Machine/Multiply.lean ====
section
/-! DEFINITION. The ARM multiply and DSP instructions (spec/43_arm_multiply_dsp.md). -/

namespace Sys2Proof.Machine

/-- A 32-bit multiply result: the register and, with S, N and Z (R301, R302). -/
def multiplyResult (sf : Bool) (rd : Reg) (r : Word) (s : State) : Result :=
  .next (State.setReg { s with cpsr := if sf then s.cpsr.setNZ r else s.cpsr } rd r).advance

/-- A 64-bit multiply result: the two registers and, with S, N and Z of the 64 bits (R303 to R306). -/
def longResult (sf : Bool) (rdHi rdLo : Reg) (r : BitVec 64) (s : State) : Result :=
  .next (((State.setReg { s with cpsr := if sf then s.cpsr.setNZ64 r else s.cpsr } rdHi (hiWord r)).setReg rdLo
    (loWord r)).advance)

/-- A result that may set the sticky flag (R309, R311, R313 to R316, R317). -/
def stickyResult (rd : Reg) (r : Word) (sat : Bool) (s : State) : Result :=
  .next (State.setReg { s with cpsr := s.cpsr.stickyQ sat } rd r).advance

/-- The unsigned 64-bit product (R303). -/
def unsignedProduct (x y : Word) : BitVec 64 := BitVec.ofNat 64 (x.toNat * y.toNat)
/-- The signed 64-bit product (R305). -/
def signedProduct (x y : Word) : BitVec 64 := BitVec.ofInt 64 (x.toInt * y.toInt)
/-- The product of two signed halves, 32 bits (R308). -/
def halfProduct (x y : Bool) (m n : Word) : Word := BitVec.ofInt 32 (signedHalf m x * signedHalf n y)
/-- Bits [47:16] of the product of a word and a signed half (R310). -/
def wideProduct (y : Bool) (m n : Word) : Word := BitVec.ofInt 32 ((m.toInt * signedHalf n y) / 2 ^ 16)
/-- The two saturating steps of QDADD and QDSUB (R315, R316): `Rn` doubled and saturated, and whether it saturated. -/
def doubled (n : Word) : Word × Bool := signedSat32 (2 * n.toInt)

/-- MUL (R301). -/
def execMul (c : Cond) (sf : Bool) (rd : Reg) (z : BitVec 4) (rs : Reg) (rm : Reg) (s : State) : Result :=
  conditional c s (guarded (mulCheck rd z rs rm) (multiplyResult sf rd (s.reg rm * s.reg rs) s))

/-- MLA (R302). -/
def execMla (c : Cond) (sf : Bool) (rd : Reg) (rn : Reg) (rs : Reg) (rm : Reg) (s : State) : Result :=
  conditional c s (guarded (mlaCheck rd rn rs rm) (multiplyResult sf rd (s.reg rm * s.reg rs + s.reg rn) s))

/-- UMULL (R303). -/
def execUmull (c : Cond) (sf : Bool) (rdHi : Reg) (rdLo : Reg) (rs : Reg) (rm : Reg) (s : State) : Result :=
  conditional c s (guarded (longCheck rdHi rdLo rs rm)
    (longResult sf rdHi rdLo (unsignedProduct (s.reg rm) (s.reg rs)) s))

/-- UMLAL (R304). -/
def execUmlal (c : Cond) (sf : Bool) (rdHi : Reg) (rdLo : Reg) (rs : Reg) (rm : Reg) (s : State) : Result :=
  conditional c s (guarded (longCheck rdHi rdLo rs rm)
    (longResult sf rdHi rdLo (unsignedProduct (s.reg rm) (s.reg rs) + pair64 (s.reg rdHi) (s.reg rdLo)) s))

/-- SMULL (R305). -/
def execSmull (c : Cond) (sf : Bool) (rdHi : Reg) (rdLo : Reg) (rs : Reg) (rm : Reg) (s : State) : Result :=
  conditional c s (guarded (longCheck rdHi rdLo rs rm)
    (longResult sf rdHi rdLo (signedProduct (s.reg rm) (s.reg rs)) s))

/-- SMLAL (R306). -/
def execSmlal (c : Cond) (sf : Bool) (rdHi : Reg) (rdLo : Reg) (rs : Reg) (rm : Reg) (s : State) : Result :=
  conditional c s (guarded (longCheck rdHi rdLo rs rm)
    (longResult sf rdHi rdLo (signedProduct (s.reg rm) (s.reg rs) + pair64 (s.reg rdHi) (s.reg rdLo)) s))

/-- SMLA<x><y> (R309). -/
def execSmlaXY (c : Cond) (rd : Reg) (rn : Reg) (rs : Reg) (y : Bool) (x : Bool) (rm : Reg) (s : State) : Result :=
  let r := addWithCarry (halfProduct x y (s.reg rm) (s.reg rs)) (s.reg rn) false
  conditional c s (guarded (fourRegCheck rd rn rs rm) (stickyResult rd r.value r.overflow s))

/-- SMLAW<y> (R311). -/
def execSmlawY (c : Cond) (rd : Reg) (rn : Reg) (rs : Reg) (y : Bool) (rm : Reg) (s : State) : Result :=
  let r := addWithCarry (wideProduct y (s.reg rm) (s.reg rs)) (s.reg rn) false
  conditional c s (guarded (fourRegCheck rd rn rs rm) (stickyResult rd r.value r.overflow s))

/-- SMULW<y> (R310). -/
def execSmulwY (c : Cond) (rd : Reg) (z : BitVec 4) (rs : Reg) (y : Bool) (rm : Reg) (s : State) : Result :=
  conditional c s (guarded (threeRegCheck z rd rs rm)
    (multiplyResult false rd (wideProduct y (s.reg rm) (s.reg rs)) s))

/-- SMLAL<x><y> (R312). -/
def execSmlalXY (c : Cond) (rdHi : Reg) (rdLo : Reg) (rs : Reg) (y : Bool) (x : Bool) (rm : Reg) (s : State) : Result :=
  conditional c s (guarded (smlalXYCheck rdHi rdLo rs rm)
    (longResult false rdHi rdLo
      (pair64 (s.reg rdHi) (s.reg rdLo) + (halfProduct x y (s.reg rm) (s.reg rs)).signExtend 64) s))

/-- SMUL<x><y> (R308). -/
def execSmulXY (c : Cond) (rd : Reg) (z : BitVec 4) (rs : Reg) (y : Bool) (x : Bool) (rm : Reg) (s : State) : Result :=
  conditional c s (guarded (threeRegCheck z rd rs rm)
    (multiplyResult false rd (halfProduct x y (s.reg rm) (s.reg rs)) s))

/-- QADD (R313). -/
def execQadd (c : Cond) (rn : Reg) (rd : Reg) (z : BitVec 4) (rm : Reg) (s : State) : Result :=
  let r := signedSat32 ((s.reg rm).toInt + (s.reg rn).toInt)
  conditional c s (guarded (threeRegCheck z rn rd rm) (stickyResult rd r.1 r.2 s))

/-- QSUB (R314). -/
def execQsub (c : Cond) (rn : Reg) (rd : Reg) (z : BitVec 4) (rm : Reg) (s : State) : Result :=
  let r := signedSat32 ((s.reg rm).toInt - (s.reg rn).toInt)
  conditional c s (guarded (threeRegCheck z rn rd rm) (stickyResult rd r.1 r.2 s))

/-- QDADD (R315). -/
def execQdadd (c : Cond) (rn : Reg) (rd : Reg) (z : BitVec 4) (rm : Reg) (s : State) : Result :=
  let d := doubled (s.reg rn)
  let r := signedSat32 ((s.reg rm).toInt + d.1.toInt)
  conditional c s (guarded (threeRegCheck z rn rd rm) (stickyResult rd r.1 (d.2 || r.2) s))

/-- QDSUB (R316). -/
def execQdsub (c : Cond) (rn : Reg) (rd : Reg) (z : BitVec 4) (rm : Reg) (s : State) : Result :=
  let d := doubled (s.reg rn)
  let r := signedSat32 ((s.reg rm).toInt - d.1.toInt)
  conditional c s (guarded (threeRegCheck z rn rd rm) (stickyResult rd r.1 (d.2 || r.2) s))

end Sys2Proof.Machine
end

