-- ==== Sys2Proof/Machine/ThumbData.lean ====
section
/-! DEFINITION. The Thumb data-processing instructions (spec/48_thumb_data.md), each over the operation of the ARM
instruction with the same effect (R470). -/

namespace Sys2Proof.Machine

/-- A register of a Thumb high-register form: the H bit above the 3-bit field (R202). -/
def hiReg (h : Bool) (r : LReg) : Reg := BitVec.ofBool h ++ r

/-- An operand that the shifter leaves alone: C does not change (R421). -/
def State.plain (s : State) (v : Word) : Shifted := { value := v, carry := s.cpsr.c }

/-- A result without flags, to any register (R428, R438). -/
def hiResult (rd : Reg) (v : Word) (s : State) : Result :=
  if rd = 15 then writePcThumb v s else .next (s.setReg rd v).advance

/-- The pc with bits [1:0] forced to 0, as ADD(5) and LDR(3) read it (R429, R483). -/
def State.pcAligned (s : State) : Word := clearLow 2 (s.pc + 4)

/-- LSL(1) (R422). -/
def execTLslImm (imm : BitVec 5) (rm : LReg) (rd : LReg) (s : State) : Result :=
  dataProcess .mov true rd.reg 0 (s.shiftedImm imm .lsl rm.reg) s

/-- LSR(1) (R423). -/
def execTLsrImm (imm : BitVec 5) (rm : LReg) (rd : LReg) (s : State) : Result :=
  dataProcess .mov true rd.reg 0 (s.shiftedImm imm .lsr rm.reg) s

/-- ASR(1) (R424). -/
def execTAsrImm (imm : BitVec 5) (rm : LReg) (rd : LReg) (s : State) : Result :=
  dataProcess .mov true rd.reg 0 (s.shiftedImm imm .asr rm.reg) s

/-- ADD(3) (R427). -/
def execTAddReg (rm : LReg) (rn : LReg) (rd : LReg) (s : State) : Result :=
  dataProcess .add true rd.reg (s.reg rn.reg) (s.plain (s.reg rm.reg)) s

/-- SUB(3) (R434). -/
def execTSubReg (rm : LReg) (rn : LReg) (rd : LReg) (s : State) : Result :=
  dataProcess .sub true rd.reg (s.reg rn.reg) (s.plain (s.reg rm.reg)) s

/-- ADD(1), and MOV(2), its form with a zero immediate (R437) (R425). -/
def execTAddImm3 (imm : BitVec 3) (rn : LReg) (rd : LReg) (s : State) : Result :=
  dataProcess .add true rd.reg (s.reg rn.reg) (s.plain (scaled 0 imm)) s

/-- SUB(1) (R432). -/
def execTSubImm3 (imm : BitVec 3) (rn : LReg) (rd : LReg) (s : State) : Result :=
  dataProcess .sub true rd.reg (s.reg rn.reg) (s.plain (scaled 0 imm)) s

/-- MOV(1) (R436). -/
def execTMovImm (rd : LReg) (imm : BitVec 8) (s : State) : Result :=
  dataProcess .mov true rd.reg 0 (s.plain (scaled 0 imm)) s

/-- CMP(1) (R439). -/
def execTCmpImm (rn : LReg) (imm : BitVec 8) (s : State) : Result :=
  dataCompare .cmp (s.reg rn.reg) (s.plain (scaled 0 imm)) s

/-- ADD(2) (R426). -/
def execTAddImm8 (rd : LReg) (imm : BitVec 8) (s : State) : Result :=
  dataProcess .add true rd.reg (s.reg rd.reg) (s.plain (scaled 0 imm)) s

/-- SUB(2) (R433). -/
def execTSubImm8 (rd : LReg) (imm : BitVec 8) (s : State) : Result :=
  dataProcess .sub true rd.reg (s.reg rd.reg) (s.plain (scaled 0 imm)) s

/-- AND (R442). -/
def execTAnd (rm : LReg) (rd : LReg) (s : State) : Result :=
  dataProcess .and true rd.reg (s.reg rd.reg) (s.plain (s.reg rm.reg)) s

/-- EOR (R443). -/
def execTEor (rm : LReg) (rd : LReg) (s : State) : Result :=
  dataProcess .eor true rd.reg (s.reg rd.reg) (s.plain (s.reg rm.reg)) s

/-- LSL(2) (R444). -/
def execTLslReg (rs : LReg) (rd : LReg) (s : State) : Result :=
  dataProcess .mov true rd.reg 0 (s.shiftedReg rs.reg .lsl rd.reg) s

/-- LSR(2) (R445). -/
def execTLsrReg (rs : LReg) (rd : LReg) (s : State) : Result :=
  dataProcess .mov true rd.reg 0 (s.shiftedReg rs.reg .lsr rd.reg) s

/-- ASR(2) (R446). -/
def execTAsrReg (rs : LReg) (rd : LReg) (s : State) : Result :=
  dataProcess .mov true rd.reg 0 (s.shiftedReg rs.reg .asr rd.reg) s

/-- ADC (R447). -/
def execTAdc (rm : LReg) (rd : LReg) (s : State) : Result :=
  dataProcess .adc true rd.reg (s.reg rd.reg) (s.plain (s.reg rm.reg)) s

/-- SBC (R448). -/
def execTSbc (rm : LReg) (rd : LReg) (s : State) : Result :=
  dataProcess .sbc true rd.reg (s.reg rd.reg) (s.plain (s.reg rm.reg)) s

/-- ROR (R449). -/
def execTRor (rs : LReg) (rd : LReg) (s : State) : Result :=
  dataProcess .mov true rd.reg 0 (s.shiftedReg rs.reg .ror rd.reg) s

/-- TST (R450). -/
def execTTst (rm : LReg) (rn : LReg) (s : State) : Result :=
  dataCompare .tst (s.reg rn.reg) (s.plain (s.reg rm.reg)) s

/-- NEG (R451). -/
def execTNeg (rm : LReg) (rd : LReg) (s : State) : Result :=
  dataProcess .rsb true rd.reg (s.reg rm.reg) (s.plain 0) s

/-- CMP(2) (R440). -/
def execTCmpReg (rm : LReg) (rn : LReg) (s : State) : Result :=
  dataCompare .cmp (s.reg rn.reg) (s.plain (s.reg rm.reg)) s

/-- CMN (R452). -/
def execTCmn (rm : LReg) (rn : LReg) (s : State) : Result :=
  dataCompare .cmn (s.reg rn.reg) (s.plain (s.reg rm.reg)) s

/-- ORR (R453). -/
def execTOrr (rm : LReg) (rd : LReg) (s : State) : Result :=
  dataProcess .orr true rd.reg (s.reg rd.reg) (s.plain (s.reg rm.reg)) s

/-- MUL (R454). -/
def execTMul (rm : LReg) (rd : LReg) (s : State) : Result :=
  guarded (thumbMulCheck rm rd) (multiplyResult true rd.reg (s.reg rm.reg * s.reg rd.reg) s)

/-- BIC (R455). -/
def execTBic (rm : LReg) (rd : LReg) (s : State) : Result :=
  dataProcess .bic true rd.reg (s.reg rd.reg) (s.plain (s.reg rm.reg)) s

/-- MVN (R456). -/
def execTMvn (rm : LReg) (rd : LReg) (s : State) : Result :=
  dataProcess .mvn true rd.reg 0 (s.plain (s.reg rm.reg)) s

/-- ADD(4) (R428). -/
def execTAddHi (h1 : Bool) (h2 : Bool) (rm : LReg) (rd : LReg) (s : State) : Result :=
  guarded (hiCheck h1 h2) (hiResult (hiReg h1 rd) (s.reg (hiReg h1 rd) + s.reg (hiReg h2 rm)) s)

/-- CMP(3) (R441). -/
def execTCmpHi (h1 : Bool) (h2 : Bool) (rm : LReg) (rn : LReg) (s : State) : Result :=
  guarded (hiCmpCheck h1 h2 rn)
    (dataCompare .cmp (s.reg (hiReg h1 rn)) (s.plain (s.reg (hiReg h2 rm))) s)

/-- MOV(3) (R438). -/
def execTMovHi (h1 : Bool) (h2 : Bool) (rm : LReg) (rd : LReg) (s : State) : Result :=
  guarded (hiCheck h1 h2) (hiResult (hiReg h1 rd) (s.reg (hiReg h2 rm)) s)

/-- ADD(5) (R429). -/
def execTAddPc (rd : LReg) (imm : BitVec 8) (s : State) : Result :=
  hiResult rd.reg (s.pcAligned + scaled 2 imm) s

/-- ADD(6) (R430). -/
def execTAddSp (rd : LReg) (imm : BitVec 8) (s : State) : Result :=
  hiResult rd.reg (s.reg 13 + scaled 2 imm) s

/-- ADD(7) (R431). -/
def execTIncSp (imm : BitVec 7) (s : State) : Result :=
  hiResult 13 (s.reg 13 + scaled 2 imm) s

/-- SUB(4) (R435). -/
def execTDecSp (imm : BitVec 7) (s : State) : Result :=
  hiResult 13 (s.reg 13 - scaled 2 imm) s

end Sys2Proof.Machine
end

