-- ==== Sys2Proof/Machine/ThumbBranch.lean ====
section
/-! DEFINITION. The Thumb branches and exception-generating instructions (spec/49_thumb_memory_branch.md, R510 to R530). -/

namespace Sys2Proof.Machine

/-- The target of a Thumb branch: two instructions ahead plus the offset (R203). -/
def State.thumbTarget {n : Nat} (s : State) (off : BitVec n) : Word := s.pc + 4 + thumbOffset off

/-- The link value of a Thumb call: the next instruction, with bit 0 set (R522, R523, R526). -/
def State.thumbLink (s : State) : Word := (s.pc + 2) ||| 1

/-- BX (R525). -/
def execTBx (h2 : Bool) (rm : LReg) (z : BitVec 3) (s : State) : Result :=
  guarded (fieldCheck z 0) (writePcExchange (s.reg (hiReg h2 rm)) s)

/-- BLX(2) (R526). -/
def execTBlxReg (h2 : Bool) (rm : LReg) (z : BitVec 3) (s : State) : Result :=
  guarded (thumbBlxCheck h2 rm z) (writePcExchange (s.reg (hiReg h2 rm)) (s.setReg 14 s.thumbLink))

/-- BKPT (R529). -/
def execTBkpt (_imm : BitVec 8) (s : State) : Result :=
  .next (breakpoint s)

/-- B(1) (R510). -/
def execTBCond (c : Cond) (off : BitVec 8) (s : State) : Result :=
  conditional c s (.next (s.branchTo (s.thumbTarget off)))

/-- UNDEFINED, the undefined Thumb instruction (R530). -/
def execTUndef (_ig : BitVec 8) (s : State) : Result :=
  .next (s.takeException .undef)

/-- SWI (R528). -/
def execTSwi (_imm : BitVec 8) (s : State) : Result :=
  .next (s.takeException .swi)

/-- B(2) (R511). -/
def execTB (off : BitVec 11) (s : State) : Result :=
  .next (s.branchTo (s.thumbTarget off))

/-- BLX(1) suffix (R523). -/
def execTBlxSuffix (off : BitVec 10) (s : State) : Result :=
  .next (((s.setReg 14 s.thumbLink).setT false).branchTo (clearLow 2 (s.reg 14 + scaled 2 off)))

/-- BL/BLX(1) prefix (R521). -/
def execTBlPrefix (off : BitVec 11) (s : State) : Result :=
  .next (s.setReg 14 (s.pc + 4 + ((off.signExtend 32) <<< 12))).advance

/-- BL suffix (R522). -/
def execTBlSuffix (off : BitVec 11) (s : State) : Result :=
  .next ((s.setReg 14 s.thumbLink).branchTo (clearLow 1 (s.reg 14 + scaled 1 off)))

end Sys2Proof.Machine
end

