-- ==== Sys2Proof/Machine/ThumbMem.lean ====
section
/-! DEFINITION. The Thumb loads, stores and stack instructions (spec/49_thumb_memory_branch.md, R480 to R504). -/

namespace Sys2Proof.Machine

/-- A misaligned word access of a Thumb single load or store with A = 0 is refused (R480). -/
def State.thumbRefused (s : State) (size : Nat) (a : Word) : Bool := !s.ctl.a && size == 4 && misaligned 4 a

/-- A Thumb single load: no write-back (R480). -/
def thumbLoad (k : LoadKind) (rd : LReg) (a : Word) (s : State) : Result :=
  if s.thumbRefused k.size a then unpredictable .misalignedThumb
  else loadSingle k s.priv 0 rd.reg { addr := a, wb := none } s

/-- A Thumb single store: no write-back (R480). -/
def thumbStore (size : Nat) (rd : LReg) (a : Word) (s : State) : Result :=
  if s.thumbRefused size a then unpredictable .misalignedThumb
  else storeSingle size s.priv 0 { addr := a, wb := none } (s.reg rd.reg) s

/-- The register list of a Thumb multiple transfer as a 16-bit list: r0 to r7, and `hi` above. -/
def lowList (hi : BitVec 8) (list : BitVec 8) : BitVec 16 := hi ++ list

/-- The list of PUSH: R adds r14 (R500). -/
def pushList (r : Bool) (list : BitVec 8) : BitVec 16 := lowList (if r then 0x40 else 0) list

/-- The list of POP: R adds r15 (R501). -/
def popList (r : Bool) (list : BitVec 8) : BitVec 16 := lowList (if r then 0x80 else 0) list

/-- LDR(3) (R483). -/
def execTLdrPc (rd : LReg) (imm : BitVec 8) (s : State) : Result :=
  thumbLoad .word rd (s.pcAligned + scaled 2 imm) s

/-- STR(2) (R486). -/
def execTStrReg (rm : LReg) (rn : LReg) (rd : LReg) (s : State) : Result :=
  thumbStore 4 rd (s.reg rn.reg + s.reg rm.reg) s

/-- STRH(2) (R495). -/
def execTStrhReg (rm : LReg) (rn : LReg) (rd : LReg) (s : State) : Result :=
  thumbStore 2 rd (s.reg rn.reg + s.reg rm.reg) s

/-- STRB(2) (R491). -/
def execTStrbReg (rm : LReg) (rn : LReg) (rd : LReg) (s : State) : Result :=
  thumbStore 1 rd (s.reg rn.reg + s.reg rm.reg) s

/-- LDRSB (R496). -/
def execTLdrsb (rm : LReg) (rn : LReg) (rd : LReg) (s : State) : Result :=
  thumbLoad .signedByte rd (s.reg rn.reg + s.reg rm.reg) s

/-- LDR(2) (R482). -/
def execTLdrReg (rm : LReg) (rn : LReg) (rd : LReg) (s : State) : Result :=
  thumbLoad .word rd (s.reg rn.reg + s.reg rm.reg) s

/-- LDRH(2) (R493). -/
def execTLdrhReg (rm : LReg) (rn : LReg) (rd : LReg) (s : State) : Result :=
  thumbLoad .half rd (s.reg rn.reg + s.reg rm.reg) s

/-- LDRB(2) (R489). -/
def execTLdrbReg (rm : LReg) (rn : LReg) (rd : LReg) (s : State) : Result :=
  thumbLoad .byte rd (s.reg rn.reg + s.reg rm.reg) s

/-- LDRSH (R497). -/
def execTLdrsh (rm : LReg) (rn : LReg) (rd : LReg) (s : State) : Result :=
  thumbLoad .signedHalf rd (s.reg rn.reg + s.reg rm.reg) s

/-- STR(1) (R485). -/
def execTStrImm (imm : BitVec 5) (rn : LReg) (rd : LReg) (s : State) : Result :=
  thumbStore 4 rd (s.reg rn.reg + scaled 2 imm) s

/-- LDR(1) (R481). -/
def execTLdrImm (imm : BitVec 5) (rn : LReg) (rd : LReg) (s : State) : Result :=
  thumbLoad .word rd (s.reg rn.reg + scaled 2 imm) s

/-- STRB(1) (R490). -/
def execTStrbImm (imm : BitVec 5) (rn : LReg) (rd : LReg) (s : State) : Result :=
  thumbStore 1 rd (s.reg rn.reg + scaled 0 imm) s

/-- LDRB(1) (R488). -/
def execTLdrbImm (imm : BitVec 5) (rn : LReg) (rd : LReg) (s : State) : Result :=
  thumbLoad .byte rd (s.reg rn.reg + scaled 0 imm) s

/-- STRH(1) (R494). -/
def execTStrhImm (imm : BitVec 5) (rn : LReg) (rd : LReg) (s : State) : Result :=
  thumbStore 2 rd (s.reg rn.reg + scaled 1 imm) s

/-- LDRH(1) (R492). -/
def execTLdrhImm (imm : BitVec 5) (rn : LReg) (rd : LReg) (s : State) : Result :=
  thumbLoad .half rd (s.reg rn.reg + scaled 1 imm) s

/-- STR(3) (R487). -/
def execTStrSp (rd : LReg) (imm : BitVec 8) (s : State) : Result :=
  thumbStore 4 rd (s.reg 13 + scaled 2 imm) s

/-- LDR(4) (R484). -/
def execTLdrSp (rd : LReg) (imm : BitVec 8) (s : State) : Result :=
  thumbLoad .word rd (s.reg 13 + scaled 2 imm) s

/-- PUSH (R500). -/
def execTPush (r : Bool) (list : BitVec 8) (s : State) : Result :=
  let l := pushList r list
  guarded (pushCheck r list) (storeMultiple s.reg false false 13 l (multiStart true false (listCount l) (s.reg 13))
    (backIf true false (listCount l) (s.reg 13)) s)

/-- POP (R501). -/
def execTPop (r : Bool) (list : BitVec 8) (s : State) : Result :=
  let l := popList r list
  guarded (pushCheck r list) (loadMultiple (physReg s.cpsr.m) false 13 l (multiStart false true (listCount l) (s.reg 13))
    (backIf true true (listCount l) (s.reg 13)) loadPc s)

/-- STMIA (R503). -/
def execTStmia (rn : LReg) (list : BitVec 8) (s : State) : Result :=
  let l := lowList 0 list
  guarded (stmiaCheck rn list) (storeMultiple s.reg false false rn.reg l
    (multiStart false true (listCount l) (s.reg rn.reg)) (backIf true true (listCount l) (s.reg rn.reg)) s)

/-- LDMIA (R502). -/
def execTLdmia (rn : LReg) (list : BitVec 8) (s : State) : Result :=
  let l := lowList 0 list
  guarded (listCheck list) (loadMultiple (physReg s.cpsr.m) false rn.reg l
    (multiStart false true (listCount l) (s.reg rn.reg))
    (backIf (!list.getLsbD rn.toNat) true (listCount l) (s.reg rn.reg)) loadPc s)

end Sys2Proof.Machine
end

