-- ==== Sys2Proof/Machine/Dispatch.lean ====
section
/-! DEFINITION. The meaning of every instruction: one arm per constructor of `Instr`, in the order of spec/opcode_table.json. -/

namespace Sys2Proof.Machine

/-- The meaning of an instruction at a state. -/
def exec (i : Instr) (s : State) : Host.Outcome State Fault Refusal :=
  match i with
  | .andImm c sf rn rd rot imm => Sys2Proof.Machine.execAndImm c sf rn rd rot imm s
  | .andShImm c sf rn rd sa sh rm => Sys2Proof.Machine.execAndShImm c sf rn rd sa sh rm s
  | .andShReg c sf rn rd rs sh rm => Sys2Proof.Machine.execAndShReg c sf rn rd rs sh rm s
  | .eorImm c sf rn rd rot imm => Sys2Proof.Machine.execEorImm c sf rn rd rot imm s
  | .eorShImm c sf rn rd sa sh rm => Sys2Proof.Machine.execEorShImm c sf rn rd sa sh rm s
  | .eorShReg c sf rn rd rs sh rm => Sys2Proof.Machine.execEorShReg c sf rn rd rs sh rm s
  | .subImm c sf rn rd rot imm => Sys2Proof.Machine.execSubImm c sf rn rd rot imm s
  | .subShImm c sf rn rd sa sh rm => Sys2Proof.Machine.execSubShImm c sf rn rd sa sh rm s
  | .subShReg c sf rn rd rs sh rm => Sys2Proof.Machine.execSubShReg c sf rn rd rs sh rm s
  | .rsbImm c sf rn rd rot imm => Sys2Proof.Machine.execRsbImm c sf rn rd rot imm s
  | .rsbShImm c sf rn rd sa sh rm => Sys2Proof.Machine.execRsbShImm c sf rn rd sa sh rm s
  | .rsbShReg c sf rn rd rs sh rm => Sys2Proof.Machine.execRsbShReg c sf rn rd rs sh rm s
  | .addImm c sf rn rd rot imm => Sys2Proof.Machine.execAddImm c sf rn rd rot imm s
  | .addShImm c sf rn rd sa sh rm => Sys2Proof.Machine.execAddShImm c sf rn rd sa sh rm s
  | .addShReg c sf rn rd rs sh rm => Sys2Proof.Machine.execAddShReg c sf rn rd rs sh rm s
  | .adcImm c sf rn rd rot imm => Sys2Proof.Machine.execAdcImm c sf rn rd rot imm s
  | .adcShImm c sf rn rd sa sh rm => Sys2Proof.Machine.execAdcShImm c sf rn rd sa sh rm s
  | .adcShReg c sf rn rd rs sh rm => Sys2Proof.Machine.execAdcShReg c sf rn rd rs sh rm s
  | .sbcImm c sf rn rd rot imm => Sys2Proof.Machine.execSbcImm c sf rn rd rot imm s
  | .sbcShImm c sf rn rd sa sh rm => Sys2Proof.Machine.execSbcShImm c sf rn rd sa sh rm s
  | .sbcShReg c sf rn rd rs sh rm => Sys2Proof.Machine.execSbcShReg c sf rn rd rs sh rm s
  | .rscImm c sf rn rd rot imm => Sys2Proof.Machine.execRscImm c sf rn rd rot imm s
  | .rscShImm c sf rn rd sa sh rm => Sys2Proof.Machine.execRscShImm c sf rn rd sa sh rm s
  | .rscShReg c sf rn rd rs sh rm => Sys2Proof.Machine.execRscShReg c sf rn rd rs sh rm s
  | .tstImm c rn z rot imm => Sys2Proof.Machine.execTstImm c rn z rot imm s
  | .tstShImm c rn z sa sh rm => Sys2Proof.Machine.execTstShImm c rn z sa sh rm s
  | .tstShReg c rn z rs sh rm => Sys2Proof.Machine.execTstShReg c rn z rs sh rm s
  | .teqImm c rn z rot imm => Sys2Proof.Machine.execTeqImm c rn z rot imm s
  | .teqShImm c rn z sa sh rm => Sys2Proof.Machine.execTeqShImm c rn z sa sh rm s
  | .teqShReg c rn z rs sh rm => Sys2Proof.Machine.execTeqShReg c rn z rs sh rm s
  | .cmpImm c rn z rot imm => Sys2Proof.Machine.execCmpImm c rn z rot imm s
  | .cmpShImm c rn z sa sh rm => Sys2Proof.Machine.execCmpShImm c rn z sa sh rm s
  | .cmpShReg c rn z rs sh rm => Sys2Proof.Machine.execCmpShReg c rn z rs sh rm s
  | .cmnImm c rn z rot imm => Sys2Proof.Machine.execCmnImm c rn z rot imm s
  | .cmnShImm c rn z sa sh rm => Sys2Proof.Machine.execCmnShImm c rn z sa sh rm s
  | .cmnShReg c rn z rs sh rm => Sys2Proof.Machine.execCmnShReg c rn z rs sh rm s
  | .orrImm c sf rn rd rot imm => Sys2Proof.Machine.execOrrImm c sf rn rd rot imm s
  | .orrShImm c sf rn rd sa sh rm => Sys2Proof.Machine.execOrrShImm c sf rn rd sa sh rm s
  | .orrShReg c sf rn rd rs sh rm => Sys2Proof.Machine.execOrrShReg c sf rn rd rs sh rm s
  | .movImm c sf z rd rot imm => Sys2Proof.Machine.execMovImm c sf z rd rot imm s
  | .movShImm c sf z rd sa sh rm => Sys2Proof.Machine.execMovShImm c sf z rd sa sh rm s
  | .movShReg c sf z rd rs sh rm => Sys2Proof.Machine.execMovShReg c sf z rd rs sh rm s
  | .bicImm c sf rn rd rot imm => Sys2Proof.Machine.execBicImm c sf rn rd rot imm s
  | .bicShImm c sf rn rd sa sh rm => Sys2Proof.Machine.execBicShImm c sf rn rd sa sh rm s
  | .bicShReg c sf rn rd rs sh rm => Sys2Proof.Machine.execBicShReg c sf rn rd rs sh rm s
  | .mvnImm c sf z rd rot imm => Sys2Proof.Machine.execMvnImm c sf z rd rot imm s
  | .mvnShImm c sf z rd sa sh rm => Sys2Proof.Machine.execMvnShImm c sf z rd sa sh rm s
  | .mvnShReg c sf z rd rs sh rm => Sys2Proof.Machine.execMvnShReg c sf z rd rs sh rm s
  | .clz c o1 rd o2 rm => Sys2Proof.Machine.execClz c o1 rd o2 rm s
  | .mul c sf rd z rs rm => Sys2Proof.Machine.execMul c sf rd z rs rm s
  | .mla c sf rd rn rs rm => Sys2Proof.Machine.execMla c sf rd rn rs rm s
  | .umull c sf rdHi rdLo rs rm => Sys2Proof.Machine.execUmull c sf rdHi rdLo rs rm s
  | .umlal c sf rdHi rdLo rs rm => Sys2Proof.Machine.execUmlal c sf rdHi rdLo rs rm s
  | .smull c sf rdHi rdLo rs rm => Sys2Proof.Machine.execSmull c sf rdHi rdLo rs rm s
  | .smlal c sf rdHi rdLo rs rm => Sys2Proof.Machine.execSmlal c sf rdHi rdLo rs rm s
  | .smlaXY c rd rn rs y x rm => Sys2Proof.Machine.execSmlaXY c rd rn rs y x rm s
  | .smlawY c rd rn rs y rm => Sys2Proof.Machine.execSmlawY c rd rn rs y rm s
  | .smulwY c rd z rs y rm => Sys2Proof.Machine.execSmulwY c rd z rs y rm s
  | .smlalXY c rdHi rdLo rs y x rm => Sys2Proof.Machine.execSmlalXY c rdHi rdLo rs y x rm s
  | .smulXY c rd z rs y x rm => Sys2Proof.Machine.execSmulXY c rd z rs y x rm s
  | .qadd c rn rd z rm => Sys2Proof.Machine.execQadd c rn rd z rm s
  | .qsub c rn rd z rm => Sys2Proof.Machine.execQsub c rn rd z rm s
  | .qdadd c rn rd z rm => Sys2Proof.Machine.execQdadd c rn rd z rm s
  | .qdsub c rn rd z rm => Sys2Proof.Machine.execQdsub c rn rd z rm s
  | .b c off => Sys2Proof.Machine.execB c off s
  | .bl c off => Sys2Proof.Machine.execBl c off s
  | .blxImm h off => Sys2Proof.Machine.execBlxImm h off s
  | .bx c o rm => Sys2Proof.Machine.execBx c o rm s
  | .blxReg c o rm => Sys2Proof.Machine.execBlxReg c o rm s
  | .mrs c r o rd z1 z2 => Sys2Proof.Machine.execMrs c r o rd z1 z2 s
  | .msrReg c r fm o z rm => Sys2Proof.Machine.execMsrReg c r fm o z rm s
  | .msrImm c r fm o rot imm => Sys2Proof.Machine.execMsrImm c r fm o rot imm s
  | .swi c imm => Sys2Proof.Machine.execSwi c imm s
  | .bkpt immHi immLo => Sys2Proof.Machine.execBkpt immHi immLo s
  | .ldrImm c p u w rn rd off => Sys2Proof.Machine.execLdrImm c p u w rn rd off s
  | .ldrReg c p u w rn rd sa sh rm => Sys2Proof.Machine.execLdrReg c p u w rn rd sa sh rm s
  | .strImm c p u w rn rd off => Sys2Proof.Machine.execStrImm c p u w rn rd off s
  | .strReg c p u w rn rd sa sh rm => Sys2Proof.Machine.execStrReg c p u w rn rd sa sh rm s
  | .ldrbImm c p u w rn rd off => Sys2Proof.Machine.execLdrbImm c p u w rn rd off s
  | .ldrbReg c p u w rn rd sa sh rm => Sys2Proof.Machine.execLdrbReg c p u w rn rd sa sh rm s
  | .strbImm c p u w rn rd off => Sys2Proof.Machine.execStrbImm c p u w rn rd off s
  | .strbReg c p u w rn rd sa sh rm => Sys2Proof.Machine.execStrbReg c p u w rn rd sa sh rm s
  | .ldrtImm c u rn rd off => Sys2Proof.Machine.execLdrtImm c u rn rd off s
  | .ldrtReg c u rn rd sa sh rm => Sys2Proof.Machine.execLdrtReg c u rn rd sa sh rm s
  | .strtImm c u rn rd off => Sys2Proof.Machine.execStrtImm c u rn rd off s
  | .strtReg c u rn rd sa sh rm => Sys2Proof.Machine.execStrtReg c u rn rd sa sh rm s
  | .ldrbtImm c u rn rd off => Sys2Proof.Machine.execLdrbtImm c u rn rd off s
  | .ldrbtReg c u rn rd sa sh rm => Sys2Proof.Machine.execLdrbtReg c u rn rd sa sh rm s
  | .strbtImm c u rn rd off => Sys2Proof.Machine.execStrbtImm c u rn rd off s
  | .strbtReg c u rn rd sa sh rm => Sys2Proof.Machine.execStrbtReg c u rn rd sa sh rm s
  | .ldrhImm c p u w rn rd immH immL => Sys2Proof.Machine.execLdrhImm c p u w rn rd immH immL s
  | .ldrhReg c p u w rn rd z rm => Sys2Proof.Machine.execLdrhReg c p u w rn rd z rm s
  | .strhImm c p u w rn rd immH immL => Sys2Proof.Machine.execStrhImm c p u w rn rd immH immL s
  | .strhReg c p u w rn rd z rm => Sys2Proof.Machine.execStrhReg c p u w rn rd z rm s
  | .ldrsbImm c p u w rn rd immH immL => Sys2Proof.Machine.execLdrsbImm c p u w rn rd immH immL s
  | .ldrsbReg c p u w rn rd z rm => Sys2Proof.Machine.execLdrsbReg c p u w rn rd z rm s
  | .ldrshImm c p u w rn rd immH immL => Sys2Proof.Machine.execLdrshImm c p u w rn rd immH immL s
  | .ldrshReg c p u w rn rd z rm => Sys2Proof.Machine.execLdrshReg c p u w rn rd z rm s
  | .ldrdImm c p u w rn rd immH immL => Sys2Proof.Machine.execLdrdImm c p u w rn rd immH immL s
  | .ldrdReg c p u w rn rd z rm => Sys2Proof.Machine.execLdrdReg c p u w rn rd z rm s
  | .strdImm c p u w rn rd immH immL => Sys2Proof.Machine.execStrdImm c p u w rn rd immH immL s
  | .strdReg c p u w rn rd z rm => Sys2Proof.Machine.execStrdReg c p u w rn rd z rm s
  | .pldImm u rn off => Sys2Proof.Machine.execPldImm u rn off s
  | .pldReg u rn sa sh rm => Sys2Proof.Machine.execPldReg u rn sa sh rm s
  | .ldm1 c p u w rn list => Sys2Proof.Machine.execLdm1 c p u w rn list s
  | .ldm2 c p u z rn list => Sys2Proof.Machine.execLdm2 c p u z rn list s
  | .ldm3 c p u w rn list => Sys2Proof.Machine.execLdm3 c p u w rn list s
  | .stm1 c p u w rn list => Sys2Proof.Machine.execStm1 c p u w rn list s
  | .stm2 c p u z rn list => Sys2Proof.Machine.execStm2 c p u z rn list s
  | .swp c rn rd z rm => Sys2Proof.Machine.execSwp c rn rd z rm s
  | .swpb c rn rd z rm => Sys2Proof.Machine.execSwpb c rn rd z rm s
  | .cdp c op1 crn crd cp op2 crm => Sys2Proof.Machine.execCdp c op1 crn crd cp op2 crm s
  | .ldc c p u n w rn crd cp off => Sys2Proof.Machine.execLdc c p u n w rn crd cp off s
  | .stc c p u n w rn crd cp off => Sys2Proof.Machine.execStc c p u n w rn crd cp off s
  | .mcr c op1 crn rd cp op2 crm => Sys2Proof.Machine.execMcr c op1 crn rd cp op2 crm s
  | .mrc c op1 crn rd cp op2 crm => Sys2Proof.Machine.execMrc c op1 crn rd cp op2 crm s
  | .mcrr c rn rd cp op1 crm => Sys2Proof.Machine.execMcrr c rn rd cp op1 crm s
  | .mrrc c rn rd cp op1 crm => Sys2Proof.Machine.execMrrc c rn rd cp op1 crm s
  | .cdp2 op1 crn crd cp op2 crm => Sys2Proof.Machine.execCdp2 op1 crn crd cp op2 crm s
  | .ldc2 p u n w rn crd cp off => Sys2Proof.Machine.execLdc2 p u n w rn crd cp off s
  | .stc2 p u n w rn crd cp off => Sys2Proof.Machine.execStc2 p u n w rn crd cp off s
  | .mcr2 op1 crn rd cp op2 crm => Sys2Proof.Machine.execMcr2 op1 crn rd cp op2 crm s
  | .mrc2 op1 crn rd cp op2 crm => Sys2Proof.Machine.execMrc2 op1 crn rd cp op2 crm s
  | .mcr15 c op1 crn rd op2 crm => Sys2Proof.Machine.execMcr15 c op1 crn rd op2 crm s
  | .mrc15 c op1 crn rd op2 crm => Sys2Proof.Machine.execMrc15 c op1 crn rd op2 crm s
  | .mcr14 c op1 crn rd op2 crm => Sys2Proof.Machine.execMcr14 c op1 crn rd op2 crm s
  | .mrc14 c op1 crn rd op2 crm => Sys2Proof.Machine.execMrc14 c op1 crn rd op2 crm s
  | .undefMedia c ig1 ig2 => Sys2Proof.Machine.execUndefMedia c ig1 ig2 s
  | .undefMisc c ig1 ig2 => Sys2Proof.Machine.execUndefMisc c ig1 ig2 s
  | .tLslImm imm rm rd => Sys2Proof.Machine.execTLslImm imm rm rd s
  | .tLsrImm imm rm rd => Sys2Proof.Machine.execTLsrImm imm rm rd s
  | .tAsrImm imm rm rd => Sys2Proof.Machine.execTAsrImm imm rm rd s
  | .tAddReg rm rn rd => Sys2Proof.Machine.execTAddReg rm rn rd s
  | .tSubReg rm rn rd => Sys2Proof.Machine.execTSubReg rm rn rd s
  | .tAddImm3 imm rn rd => Sys2Proof.Machine.execTAddImm3 imm rn rd s
  | .tSubImm3 imm rn rd => Sys2Proof.Machine.execTSubImm3 imm rn rd s
  | .tMovImm rd imm => Sys2Proof.Machine.execTMovImm rd imm s
  | .tCmpImm rn imm => Sys2Proof.Machine.execTCmpImm rn imm s
  | .tAddImm8 rd imm => Sys2Proof.Machine.execTAddImm8 rd imm s
  | .tSubImm8 rd imm => Sys2Proof.Machine.execTSubImm8 rd imm s
  | .tAnd rm rd => Sys2Proof.Machine.execTAnd rm rd s
  | .tEor rm rd => Sys2Proof.Machine.execTEor rm rd s
  | .tLslReg rs rd => Sys2Proof.Machine.execTLslReg rs rd s
  | .tLsrReg rs rd => Sys2Proof.Machine.execTLsrReg rs rd s
  | .tAsrReg rs rd => Sys2Proof.Machine.execTAsrReg rs rd s
  | .tAdc rm rd => Sys2Proof.Machine.execTAdc rm rd s
  | .tSbc rm rd => Sys2Proof.Machine.execTSbc rm rd s
  | .tRor rs rd => Sys2Proof.Machine.execTRor rs rd s
  | .tTst rm rn => Sys2Proof.Machine.execTTst rm rn s
  | .tNeg rm rd => Sys2Proof.Machine.execTNeg rm rd s
  | .tCmpReg rm rn => Sys2Proof.Machine.execTCmpReg rm rn s
  | .tCmn rm rn => Sys2Proof.Machine.execTCmn rm rn s
  | .tOrr rm rd => Sys2Proof.Machine.execTOrr rm rd s
  | .tMul rm rd => Sys2Proof.Machine.execTMul rm rd s
  | .tBic rm rd => Sys2Proof.Machine.execTBic rm rd s
  | .tMvn rm rd => Sys2Proof.Machine.execTMvn rm rd s
  | .tAddHi h1 h2 rm rd => Sys2Proof.Machine.execTAddHi h1 h2 rm rd s
  | .tCmpHi h1 h2 rm rn => Sys2Proof.Machine.execTCmpHi h1 h2 rm rn s
  | .tMovHi h1 h2 rm rd => Sys2Proof.Machine.execTMovHi h1 h2 rm rd s
  | .tAddPc rd imm => Sys2Proof.Machine.execTAddPc rd imm s
  | .tAddSp rd imm => Sys2Proof.Machine.execTAddSp rd imm s
  | .tIncSp imm => Sys2Proof.Machine.execTIncSp imm s
  | .tDecSp imm => Sys2Proof.Machine.execTDecSp imm s
  | .tBx h2 rm z => Sys2Proof.Machine.execTBx h2 rm z s
  | .tBlxReg h2 rm z => Sys2Proof.Machine.execTBlxReg h2 rm z s
  | .tLdrPc rd imm => Sys2Proof.Machine.execTLdrPc rd imm s
  | .tStrReg rm rn rd => Sys2Proof.Machine.execTStrReg rm rn rd s
  | .tStrhReg rm rn rd => Sys2Proof.Machine.execTStrhReg rm rn rd s
  | .tStrbReg rm rn rd => Sys2Proof.Machine.execTStrbReg rm rn rd s
  | .tLdrsb rm rn rd => Sys2Proof.Machine.execTLdrsb rm rn rd s
  | .tLdrReg rm rn rd => Sys2Proof.Machine.execTLdrReg rm rn rd s
  | .tLdrhReg rm rn rd => Sys2Proof.Machine.execTLdrhReg rm rn rd s
  | .tLdrbReg rm rn rd => Sys2Proof.Machine.execTLdrbReg rm rn rd s
  | .tLdrsh rm rn rd => Sys2Proof.Machine.execTLdrsh rm rn rd s
  | .tStrImm imm rn rd => Sys2Proof.Machine.execTStrImm imm rn rd s
  | .tLdrImm imm rn rd => Sys2Proof.Machine.execTLdrImm imm rn rd s
  | .tStrbImm imm rn rd => Sys2Proof.Machine.execTStrbImm imm rn rd s
  | .tLdrbImm imm rn rd => Sys2Proof.Machine.execTLdrbImm imm rn rd s
  | .tStrhImm imm rn rd => Sys2Proof.Machine.execTStrhImm imm rn rd s
  | .tLdrhImm imm rn rd => Sys2Proof.Machine.execTLdrhImm imm rn rd s
  | .tStrSp rd imm => Sys2Proof.Machine.execTStrSp rd imm s
  | .tLdrSp rd imm => Sys2Proof.Machine.execTLdrSp rd imm s
  | .tPush r list => Sys2Proof.Machine.execTPush r list s
  | .tPop r list => Sys2Proof.Machine.execTPop r list s
  | .tBkpt imm => Sys2Proof.Machine.execTBkpt imm s
  | .tStmia rn list => Sys2Proof.Machine.execTStmia rn list s
  | .tLdmia rn list => Sys2Proof.Machine.execTLdmia rn list s
  | .tBCond c off => Sys2Proof.Machine.execTBCond c off s
  | .tUndef ig => Sys2Proof.Machine.execTUndef ig s
  | .tSwi imm => Sys2Proof.Machine.execTSwi imm s
  | .tB off => Sys2Proof.Machine.execTB off s
  | .tBlxSuffix off => Sys2Proof.Machine.execTBlxSuffix off s
  | .tBlPrefix off => Sys2Proof.Machine.execTBlPrefix off s
  | .tBlSuffix off => Sys2Proof.Machine.execTBlSuffix off s

end Sys2Proof.Machine
end

