-- ==== Sys2Proof/Machine/Hazard.lean ====
section
/-! DEFINITION. The banked-register hazard after LDM(2) and STM(2) (R656): which registers an ARM instruction reads or
writes. -/

namespace Sys2Proof.Machine

/-- r14, for an instruction that takes an exception into the current mode `m` and so writes its banked r14. -/
def linkIf (m e : BitVec 5) : List Reg := if m = e then [14] else []

/-- The condition of an ARM instruction, and the registers it reads or writes by name when it executes in the mode `m`.
The User-bank registers of LDM(2) and STM(2) are not registers of the current bank. A Thumb instruction cannot follow an
LDM(2) or STM(2) directly. The r14 that an instruction writes by taking its own exception (SWI, BKPT, the Undefined ones) counts as
written by it (DEDUCED, log 18), the r14_abt of a Data Abort of its access does not (DESIGN CHOICE, log 18). -/
def accessed (m : BitVec 5) : Instr → Cond × List Reg
  | .andImm c _ rn rd _ _ => (c, [rn, rd])
  | .andShImm c _ rn rd _ _ rm => (c, [rn, rd, rm])
  | .andShReg c _ rn rd rs _ rm => (c, [rn, rd, rs, rm])
  | .eorImm c _ rn rd _ _ => (c, [rn, rd])
  | .eorShImm c _ rn rd _ _ rm => (c, [rn, rd, rm])
  | .eorShReg c _ rn rd rs _ rm => (c, [rn, rd, rs, rm])
  | .subImm c _ rn rd _ _ => (c, [rn, rd])
  | .subShImm c _ rn rd _ _ rm => (c, [rn, rd, rm])
  | .subShReg c _ rn rd rs _ rm => (c, [rn, rd, rs, rm])
  | .rsbImm c _ rn rd _ _ => (c, [rn, rd])
  | .rsbShImm c _ rn rd _ _ rm => (c, [rn, rd, rm])
  | .rsbShReg c _ rn rd rs _ rm => (c, [rn, rd, rs, rm])
  | .addImm c _ rn rd _ _ => (c, [rn, rd])
  | .addShImm c _ rn rd _ _ rm => (c, [rn, rd, rm])
  | .addShReg c _ rn rd rs _ rm => (c, [rn, rd, rs, rm])
  | .adcImm c _ rn rd _ _ => (c, [rn, rd])
  | .adcShImm c _ rn rd _ _ rm => (c, [rn, rd, rm])
  | .adcShReg c _ rn rd rs _ rm => (c, [rn, rd, rs, rm])
  | .sbcImm c _ rn rd _ _ => (c, [rn, rd])
  | .sbcShImm c _ rn rd _ _ rm => (c, [rn, rd, rm])
  | .sbcShReg c _ rn rd rs _ rm => (c, [rn, rd, rs, rm])
  | .rscImm c _ rn rd _ _ => (c, [rn, rd])
  | .rscShImm c _ rn rd _ _ rm => (c, [rn, rd, rm])
  | .rscShReg c _ rn rd rs _ rm => (c, [rn, rd, rs, rm])
  | .tstImm c rn _ _ _ => (c, [rn])
  | .tstShImm c rn _ _ _ rm => (c, [rn, rm])
  | .tstShReg c rn _ rs _ rm => (c, [rn, rs, rm])
  | .teqImm c rn _ _ _ => (c, [rn])
  | .teqShImm c rn _ _ _ rm => (c, [rn, rm])
  | .teqShReg c rn _ rs _ rm => (c, [rn, rs, rm])
  | .cmpImm c rn _ _ _ => (c, [rn])
  | .cmpShImm c rn _ _ _ rm => (c, [rn, rm])
  | .cmpShReg c rn _ rs _ rm => (c, [rn, rs, rm])
  | .cmnImm c rn _ _ _ => (c, [rn])
  | .cmnShImm c rn _ _ _ rm => (c, [rn, rm])
  | .cmnShReg c rn _ rs _ rm => (c, [rn, rs, rm])
  | .orrImm c _ rn rd _ _ => (c, [rn, rd])
  | .orrShImm c _ rn rd _ _ rm => (c, [rn, rd, rm])
  | .orrShReg c _ rn rd rs _ rm => (c, [rn, rd, rs, rm])
  | .movImm c _ _ rd _ _ => (c, [rd])
  | .movShImm c _ _ rd _ _ rm => (c, [rd, rm])
  | .movShReg c _ _ rd rs _ rm => (c, [rd, rs, rm])
  | .bicImm c _ rn rd _ _ => (c, [rn, rd])
  | .bicShImm c _ rn rd _ _ rm => (c, [rn, rd, rm])
  | .bicShReg c _ rn rd rs _ rm => (c, [rn, rd, rs, rm])
  | .mvnImm c _ _ rd _ _ => (c, [rd])
  | .mvnShImm c _ _ rd _ _ rm => (c, [rd, rm])
  | .mvnShReg c _ _ rd rs _ rm => (c, [rd, rs, rm])
  | .clz c _ rd _ rm => (c, [rd, rm])
  | .mul c _ rd _ rs rm => (c, [rd, rs, rm])
  | .mla c _ rd rn rs rm => (c, [rd, rn, rs, rm])
  | .umull c _ rdHi rdLo rs rm => (c, [rdHi, rdLo, rs, rm])
  | .umlal c _ rdHi rdLo rs rm => (c, [rdHi, rdLo, rs, rm])
  | .smull c _ rdHi rdLo rs rm => (c, [rdHi, rdLo, rs, rm])
  | .smlal c _ rdHi rdLo rs rm => (c, [rdHi, rdLo, rs, rm])
  | .smlaXY c rd rn rs _ _ rm => (c, [rd, rn, rs, rm])
  | .smlawY c rd rn rs _ rm => (c, [rd, rn, rs, rm])
  | .smulwY c rd _ rs _ rm => (c, [rd, rs, rm])
  | .smlalXY c rdHi rdLo rs _ _ rm => (c, [rdHi, rdLo, rs, rm])
  | .smulXY c rd _ rs _ _ rm => (c, [rd, rs, rm])
  | .qadd c rn rd _ rm => (c, [rn, rd, rm])
  | .qsub c rn rd _ rm => (c, [rn, rd, rm])
  | .qdadd c rn rd _ rm => (c, [rn, rd, rm])
  | .qdsub c rn rd _ rm => (c, [rn, rd, rm])
  | .b c _ => (c, [])
  | .bl c _ => (c, [14])
  | .blxImm _ _ => (.al, [14])
  | .bx c _ rm => (c, [rm])
  | .blxReg c _ rm => (c, [14, rm])
  | .mrs c _ _ rd _ _ => (c, [rd])
  | .msrReg c _ _ _ _ rm => (c, [rm])
  | .msrImm c _ _ _ _ _ => (c, [])
  | .swi c _ => (c, linkIf m modeSvc)
  | .bkpt _ _ => (.al, linkIf m modeAbt)
  | .ldrImm c _ _ _ rn rd _ => (c, [rn, rd])
  | .ldrReg c _ _ _ rn rd _ _ rm => (c, [rn, rd, rm])
  | .strImm c _ _ _ rn rd _ => (c, [rn, rd])
  | .strReg c _ _ _ rn rd _ _ rm => (c, [rn, rd, rm])
  | .ldrbImm c _ _ _ rn rd _ => (c, [rn, rd])
  | .ldrbReg c _ _ _ rn rd _ _ rm => (c, [rn, rd, rm])
  | .strbImm c _ _ _ rn rd _ => (c, [rn, rd])
  | .strbReg c _ _ _ rn rd _ _ rm => (c, [rn, rd, rm])
  | .ldrtImm c _ rn rd _ => (c, [rn, rd])
  | .ldrtReg c _ rn rd _ _ rm => (c, [rn, rd, rm])
  | .strtImm c _ rn rd _ => (c, [rn, rd])
  | .strtReg c _ rn rd _ _ rm => (c, [rn, rd, rm])
  | .ldrbtImm c _ rn rd _ => (c, [rn, rd])
  | .ldrbtReg c _ rn rd _ _ rm => (c, [rn, rd, rm])
  | .strbtImm c _ rn rd _ => (c, [rn, rd])
  | .strbtReg c _ rn rd _ _ rm => (c, [rn, rd, rm])
  | .ldrhImm c _ _ _ rn rd _ _ => (c, [rn, rd])
  | .ldrhReg c _ _ _ rn rd _ rm => (c, [rn, rd, rm])
  | .strhImm c _ _ _ rn rd _ _ => (c, [rn, rd])
  | .strhReg c _ _ _ rn rd _ rm => (c, [rn, rd, rm])
  | .ldrsbImm c _ _ _ rn rd _ _ => (c, [rn, rd])
  | .ldrsbReg c _ _ _ rn rd _ rm => (c, [rn, rd, rm])
  | .ldrshImm c _ _ _ rn rd _ _ => (c, [rn, rd])
  | .ldrshReg c _ _ _ rn rd _ rm => (c, [rn, rd, rm])
  | .ldrdImm c _ _ _ rn rd _ _ => (c, [rn, rd, rd + 1])
  | .ldrdReg c _ _ _ rn rd _ rm => (c, [rn, rd, rd + 1, rm])
  | .strdImm c _ _ _ rn rd _ _ => (c, [rn, rd, rd + 1])
  | .strdReg c _ _ _ rn rd _ rm => (c, [rn, rd, rd + 1, rm])
  | .pldImm _ _ _ => (.al, [])
  | .pldReg _ _ _ _ _ => (.al, [])
  | .ldm1 c _ _ _ rn list => (c, rn :: listed list)
  | .ldm2 c _ _ _ rn _ => (c, [rn])
  | .ldm3 c _ _ _ rn list => (c, rn :: listed (1#1 ++ list))
  | .stm1 c _ _ _ rn list => (c, rn :: listed list)
  | .stm2 c _ _ _ rn _ => (c, [rn])
  | .swp c rn rd _ rm => (c, [rn, rd, rm])
  | .swpb c rn rd _ rm => (c, [rn, rd, rm])
  | .cdp c _ _ _ _ _ _ => (c, linkIf m modeUnd)
  | .ldc c _ _ _ _ _ _ _ _ => (c, linkIf m modeUnd)
  | .stc c _ _ _ _ _ _ _ _ => (c, linkIf m modeUnd)
  | .mcr c _ _ _ _ _ _ => (c, linkIf m modeUnd)
  | .mrc c _ _ _ _ _ _ => (c, linkIf m modeUnd)
  | .mcrr c _ _ _ _ _ => (c, linkIf m modeUnd)
  | .mrrc c _ _ _ _ _ => (c, linkIf m modeUnd)
  | .cdp2 _ _ _ _ _ _ => (.al, linkIf m modeUnd)
  | .ldc2 _ _ _ _ _ _ _ _ => (.al, linkIf m modeUnd)
  | .stc2 _ _ _ _ _ _ _ _ => (.al, linkIf m modeUnd)
  | .mcr2 _ _ _ _ _ _ => (.al, linkIf m modeUnd)
  | .mrc2 _ _ _ _ _ _ => (.al, linkIf m modeUnd)
  | .mcr15 c _ _ rd _ _ => (c, [rd])
  | .mrc15 c _ _ rd _ _ => (c, [rd])
  | .mcr14 c _ _ rd _ _ => (c, [rd])
  | .mrc14 c _ _ rd _ _ => (c, [rd])
  | .undefMedia c _ _ => (c, linkIf m modeUnd)
  | .undefMisc c _ _ => (c, linkIf m modeUnd)
  | _ => (.al, [])

/-- The instruction is a BKPT that enters debug state, which writes no register (R345, R602). -/
def State.haltsOn (s : State) (i : Instr) : Bool :=
  match i with
  | .bkpt _ _ => s.bkptHalts
  | _ => false

/-- The hazard of R656: the instruction after an LDM(2) or STM(2) uses a register that the current mode banks (log 18). -/
def State.bankedUse (s : State) (i : Instr) : Bool :=
  let a := accessed s.cpsr.m i
  s.bankHazard && s.cpsr.passes a.1 && !s.haltsOn i && a.2.any (isBanked s.cpsr.m)

end Sys2Proof.Machine
end

