-- ==== Sys2Proof/Machine/CoreTurn.lean ====
section
/-! DEFINITION. One turn of the core, in the order of R566, the turns of `Turn`, and Reset inside an instruction (R541). -/

namespace Sys2Proof.Machine

/-- An FIQ request that FIFOFULL does not hold back (R612). R612 speaks of the stalled core. That the mask holds back a second
request also while the core runs un-stalled in an interrupt's mode with FIFOFULL HIGH is a DESIGN CHOICE (log 30). -/
def State.fiqOpen (s : State) : Bool := s.pins.fiq && !(s.pins.fifofull && s.cfg.fm)

/-- An IRQ request that FIFOFULL does not hold back (R612); of a second request while the core runs un-stalled, the same DESIGN
CHOICE as for `State.fiqOpen` (log 30). -/
def State.irqOpen (s : State) : Bool := s.pins.irq && !(s.pins.fifofull && s.cfg.im)

/-- An FIQ is taken at this boundary (R547, R561). -/
def State.takesFiq (s : State) : Bool := s.fiqOpen && !s.cpsr.f

/-- An IRQ is taken at this boundary (R546, R561). -/
def State.takesIrq (s : State) : Bool := s.irqOpen && !s.cpsr.i

/-- The interrupt that is entered at an instruction boundary, by the priority of R566. -/
def State.pendingInterrupt (s : State) : Option Exc :=
  if s.takesFiq then some .fiq else if s.takesIrq then some .irq else none

/-- Interrupt entry (R546, R547, R570). A breakpoint on the instruction that is not executed is discarded (R568); an
interrupt that breaks the FIFOFULL stall runs until its mode is left (R612). -/
def takeInterrupt (e : Exc) (s : State) : State :=
  let s1 := s.takeException e
  { s1 with standby := false
            dbg := { s1.dbg with bkptMatch := false }
            etmRun := if s1.pins.fifofull then some e.mode.bits else none }

/-- A breakpoint fires on the fetched instruction (R603, R147, R601). -/
def State.breakHit (s : State) (f : Fetched) : Bool :=
  s.params.dbgen && s.params.fullDebug && (f.bkpt || s.dbg.bkptMatch)

/-- The debugger's breakpoint match is used up. -/
def State.dropMatch (s : State) : State := { s with dbg := { s.dbg with bkptMatch := false } }

/-- A breakpoint: debug state, or a Prefetch Abort with DbgAbt in monitor debug-mode (R602, R603, R606, R147). -/
def takeBreakpoint (f : Fetched) (s : State) : Result :=
  if !s.dbg.monitor then .next s.enterDebug
  else if f.bkpt then unpredictable .externalInMonitor
  else .next (s.takeException .prefetchAbort).setDbgAbt

/-- The instruction code of a fetched instruction. -/
def State.code (s : State) (bits : Word) : Code := if s.cpsr.t then .thumb (bits.setWidth 16) else .arm bits

/-- The refusal of a code that no row of the opcode table holds (R196, R207, log 22). `decode` never answers `badLength`,
which only `decodeBytes` gives. -/
def DecodeError.refusal : DecodeError → Refusal
  | .unallocatedArm w => .unallocatedArm w
  | .unallocatedThumb h => .unallocatedThumb h
  | .badLength => .unallocatedArm 0

/-- The condition of an instruction code passes (R21, R172): that of an ARM code whose condition field is not 1111. A Thumb code
and an unconditional ARM code have none, nor has BKPT, whose condition field must be 1110 (R330, R345). -/
def codePasses (c : Code) (p : Psr) : Bool :=
  match c with
  | .arm w => w &&& 0x0FF000F0 == 0x01200070 || match Cond.ofBits (w.extractLsb' 28 4) with
    | some k => p.passes k
    | none => true
  | .thumb _ => true

/-- The decoded instruction runs, unless the hazard of R656 forbids it. A code that the table does not hold only advances the pc
when its condition fails (R21, R172), else it is refused (R196, R207, U33, log 22). -/
def runCode (run : Instr → State → Result) (bits : Word) (s : State) : Result :=
  match decode (s.code bits) with
  | .error e => if codePasses (s.code bits) s.cpsr then .refused (DecodeError.refusal e) else .next s.advance
  | .ok i => if s.bankedUse i then unpredictable .bankedAfterUserList else run i s

/-- An instruction at the pc is a control transfer: it leaves no replaced supply (R652). -/
def State.transfers (s : State) (bits : Word) : Bool :=
  match runCode exec bits s with
  | .next t => t.oldRoutes.isEmpty
  | .fault _ => false
  | .refused _ => false

/-- The replaced supply that gives the control transfer directly following a CP15 write: where the MCR is followed by a branch, R652
and U37 do not refuse, and that branch, as this supply fetches it, is what runs (log 17). Every other replaced supply must bring
the same. -/
def State.branchAfterWrite (s : State) : Option Route :=
  s.oldRoutes.find? fun r => r.next == s.pc && match s.bitsBy r with
    | some bits => s.transfers bits && s.oldRoutes.all fun q => q.next == s.pc || s.bitsBy q == some bits
    | none => false

/-- The fetch of step 8 of R566. Where the instruction depends on which of the supplies of R652 gives it, it is refused unless a
branch follows the CP15 write (U37). -/
def State.nextFetch (s : State) : Acc Fetched :=
  if s.staleRoute then
    match s.branchAfterWrite with
    | some r => s.fetchBy r
    | none => .refused (.unpredictable .staleRouting)
  else s.coreFetch

/-- Step 8 of R566: fetch, Prefetch Abort, breakpoint, decode, execute. -/
def runInstruction (run : Instr → State → Result) (s : State) : Result :=
  s.nextFetch.finish id fun f s1 =>
    if f.err then .next (s1.dropMatch.takeException .prefetchAbort)
    else if s1.breakHit f then takeBreakpoint f s1.dropMatch
    else runCode run f.bits s1

/-- Steps 6 to 8 of R566: the pending interrupt, else the next instruction. -/
def interruptOrRun (run : Instr → State → Result) (s : State) : Result :=
  match s.pendingInterrupt with
  | some e => .next (takeInterrupt e s)
  | none => runInstruction run s

/-- The entry sequence of the interrupt that is pending after an instruction, if one can be entered there (R604): not past the top of
the address space (log 14), not by an unrecoverable core (R46). -/
def State.enterPending (s : State) : State :=
  match s.pendingInterrupt with
  | some e => if s.pastTop || s.unrecoverable then s else takeInterrupt e s
  | none => s

/-- What a watchpoint latched by the instruction before brings after this one (R604): the entry sequence of a pending interrupt, then
debug state, unless this instruction was stopped by debug state of its own. DESIGN CHOICE, log 45: that the watchpoint decides also
where a debug request came inside this instruction, which R605 ranks above an interrupt: the interrupt is entered first all the same,
and r15 shows what it shows after a watchpoint. -/
def State.endWatched (s : State) : State := if s.dbg.halted then s else s.enterPending.enterWatched

/-- The state in which the watchpoint latched before does not count as the next instruction's own. -/
def State.unlatched (s : State) : State := { s with dbg := { s.dbg with wptLatch := false } }

/-- An instruction boundary. A watchpoint latched by the instruction before brings debug state after this one, or after the entry of an
interrupt that is pending before or after it (R604); in monitor debug-mode there is none to bring (R606, R607, U22). -/
def boundary (run : Instr → State → Result) (s : State) : Result :=
  if s.pastTop then .fault .pcPastTop
  else if s.dbg.wptLatch && s.dbg.monitor then unpredictable .mixedModes
  else if s.dbg.wptLatch then mapNext State.endWatched (interruptOrRun run s.unlatched)
  else interruptOrRun run s

/-- The core is stalled by FIFOFULL (R612): only an interrupt that is not held back gets it going, at an instruction boundary
like any other. -/
def stalled (run : Instr → State → Result) (s : State) : Result :=
  if s.pendingInterrupt.isSome then boundary run s
  else if s.fiqOpen || s.irqOpen then .next { s with standby := false }
  else .next s

/-- A turn of the core in the order of R566; `run` gives the decoded instruction its effect. What the environment and the debugger must
not do (a request in monitor debug-mode, FIFOFULL or ETMEN HIGH with no ETM) `State.forbidden` has refused. A debug request between a
watchpointed instruction and the next one: the spec does not say which decides; that the core halts before the next instruction, with
the latch gone and a free r15, is a DESIGN CHOICE, log 45. -/
def coreTurnWith (run : Instr → State → Result) (s : State) : Result :=
  if s.unrecoverable || s.dbg.halted then .next s
  else if s.debugRequest then .next s.enterDebug
  else
    let s1 := s.settle
    if s1.pins.fifofull && s1.etmRun.isNone then stalled run s1
    else if s1.standby && !(s1.fiqOpen || s1.irqOpen) then .next s1
    else boundary run { s1 with standby := false }

/-- A turn of the core. -/
def coreTurn (s : State) : Result := coreTurnWith exec s

/-! ### Reset inside an instruction (R541, R620) -/

/-- The first `k` words of a transfer of several words are stored. -/
def firstStores (k : Nat) (values : List Word) (start : Word) (s : State) : Result :=
  (storeWords s.priv false (values.take k) start s).finish id fun _ s1 => .next s1

/-- The state inside an instruction that stores several words, after its first `k` stores; the other instructions store at
most once, and a Reset falls before or after that. Every register is lost in the Reset that follows. -/
def storesDone (k : Nat) (i : Instr) (s : State) : Result :=
  match i with
  | .stm1 c p u w rn list =>
    if s.cpsr.passes c && (stmCheck rn list).isNone then
      firstStores k ((listed list).map (s.storedWord w rn list)) (multiStart p u (listCount list) (s.reg rn))
        { s with free := s.free + 1 }
    else .next s
  | .stm2 c p u z rn list =>
    if s.cpsr.passes c && (userListCheck z rn list).isNone && (excMode s.cpsr.m).isSome then
      firstStores k ((listed list).map s.storedUser) (multiStart p u (listCount list) (s.reg rn)) s
    else .next s
  | .strdImm c p u w rn rd immH immL =>
    let a := (s.mode3Imm p u w rn immH immL).addr
    if s.cpsr.passes c && (strdImmCheck p w rn rd).isNone && !doubleMisaligned a then
      firstStores k [s.reg rd, s.reg (rd + 1)] a s
    else .next s
  | .strdReg c p u w rn rd z rm =>
    let a := (s.mode3Reg p u w rn rm).addr
    if s.cpsr.passes c && (strdRegCheck p w rn rd z rm).isNone && !doubleMisaligned a then
      firstStores k [s.reg rd, s.reg (rd + 1)] a s
    else .next s
  | .tPush r list =>
    let l := pushList r list
    if (pushCheck r list).isNone then
      firstStores k ((listed l).map s.reg) (multiStart true false (listCount l) (s.reg 13)) s
    else .next s
  | .tStmia rn list =>
    let l := lowList 0 list
    if (stmiaCheck rn list).isNone then firstStores k ((listed l).map s.reg) (s.reg rn.reg) s else .next s
  | _ => .next s

/-- A watchpoint latched before stays latched: Reset does not touch the debug logic (R93, R622). -/
def State.relatch (latched : Bool) (s : State) : State :=
  { s with dbg := { s.dbg with wptLatch := s.dbg.wptLatch || latched } }

/-- A Reset that stops the core inside its next instruction (R541, R620, U12, log 29), before a watchpoint latched by the instruction
before has brought debug state. -/
def resetCut (k : Nat) (s : State) : Result :=
  mapNext (fun t => (t.relatch s.dbg.wptLatch).warmReset) (coreTurnWith (storesDone k) s.unlatched)

/-! ### The turns -/

/-- What an instruction that the debugger scanned in leaves (R600): the pc of `s`, the next instruction to execute, unless it wrote
the pc (R604). The spec does not say what r15 shows to the next one: a free value (log 45). -/
def State.scanned (s t : State) : State :=
  let u := if t.nonseq then t else { t with pc := t.alignPc s.pc, pastTop := s.pastTop, nonseq := s.nonseq }
  { u with free := u.free + 1, dbg := { u.dbg with pcView := Config.freeWord u.free } }

/-- The debugger makes the halted core execute an instruction (R600), which reads r15 as the debugger sees it (R604); the core
ignores the aborts of its accesses (R602). An instruction whose effect is to take an exception takes it here too: of BKPT (R345)
against R602 the spec does not say which decides, DESIGN CHOICE, log 43. A wait-for-interrupt sets Standby beside Halted: the debugger
goes on scanning in instructions, no interrupt pin and no debug request ends that Standby while the core is halted, and the restarted
core is in Standby; R71, R72 and R244 leave this open, DESIGN CHOICE, log 31. A core that is unrecoverable as well executes none (R46,
log 41). -/
def debugExec (bits : Word) (s : State) : Result :=
  if s.params.dbgen && s.dbg.halted then
    if s.unrecoverable then .next s
    else
      let s1 := s.settle
      mapNext s1.scanned (runCode exec bits { s1 with pc := s.pcSeen - (if s.cpsr.t then 4 else 8), nonseq := false })
  else unpredictable .badTurn

/-- One turn of the agenda (R13, log 4). -/
def takeTurn (t : Turn) (s : State) : Result :=
  match t with
  | .core => coreTurn s
  | .bus b => busTurn b s
  | .reset => .next s.warmReset
  | .resetCut k => resetCut k s
  | .debugReset => .next (debugReset s)
  | .dccTake => dccTake s
  | .dccSend v => dccSend v s
  | .debugControl monitor request takesBkpt => debugControl monitor request takesBkpt s
  | .debugMatch bkpt wpt => debugMatch bkpt wpt s
  | .debugRead d => debugRead d s
  | .debugReg r v => haltedTurn s (s.setPhys r v)
  | .debugCpsr v => debugCpsr v s
  | .debugSpsr e v => haltedTurn s (s.setSpsr e (Psr.ofWord v))
  | .debugStore a size v => debugStore a size v s
  | .debugExec bits => debugExec bits s
  | .chain15 w => chain15 w s
  | .debugRestart a => debugRestart a s

/-- Why the whole run is outside what the spec gives meaning to: parameter values that are not legal (R11, R601, U18), an external
breakpoint or watchpoint, or a debug request, in monitor debug-mode (R147, R605, R607, U20, U22), or FIFOFULL or ETMEN HIGH with no
ETM (R612, R671, U34). -/
def State.forbidden (s : State) : Option Unpred :=
  if s.params.legal then s.inputStop else some .reservedParams

/-! ### Placing an instruction where it is fetched (log 38) -/

/-- The bytes of a word that nothing has written become 0. -/
def fillWord (m : Memory) (w : Nat) : Memory :=
  (span w 4).foldl (fun m a => if (m.get? a).isNone then m.set a 0 else m) m

/-- The state with nothing between it and the fetch at its pc: no pending turn, event or buffered store. -/
def State.readyToFetch (s : State) (thumb : Bool) : State :=
  let s1 := s.drainAll
  { s1 with
    cpsr := { s1.cpsr with t := thumb }
    pc := clearLow (if thumb then 1 else 2) s1.pc
    ctl := if s1.params.itcmSize = 0 then { s1.ctl with i := false } else s1.ctl
    unrecoverable := false
    standby := false
    dbg := { s1.dbg with request := false, halted := false, wptLatch := false, bkptMatch := false }
    pins := { s1.pins with fiq := false, irq := false, edbgrq := false, fifofull := false, ibkpt := false }
    ipb := []
    ipbNext := none
    pipe := []
    nonseq := true
    pastTop := false
    bankHazard := false
    oldRoutes := []
    agenda := []
    inside := [] }

/-- The word of memory at the pc holds the instruction, with zeros in its bytes that nothing has written (a fetch reads the
whole word), and answers without an error. -/
def State.placeInstr (s : State) (bytes : List Byte) : State :=
  if s.ctl.i && decide (s.pc.toNat < 0x400000) then
    let o := s.tcmOffset .itcm s.pc.toNat
    let w := o / 4 * 4
    { s with itcm := (fillWord s.itcm w).setBytes (lane s.ctl.b bytes.length o) bytes
             itcmErrors := s.itcmErrors.filter fun e => e != w }
  else
    let wa := s.pc.toNat / 4 * 4
    { s with ahb := (fillWord s.ahb wa).setBytes (lane s.ctl.b bytes.length s.pc.toNat) bytes
             ahbErrors := s.ahbErrors.filter fun r => !r.hits .fetch wa 4 s.priv }

end Sys2Proof.Machine
end

