-- ==== Sys2Proof/Machine/Step.lean ====
section
/-! DEFINITION. The step of the machine: the next turn of the agenda, or of the core when the agenda is empty (log 4); and
the placing of an instruction where the step fetches it (log 38). -/

namespace Sys2Proof.Machine

/-- One step of the machine. -/
def step (s : State) : Host.Outcome State Fault Refusal :=
  guarded s.forbidden (match s.agenda with
    | [] => coreTurn s
    | t :: r => takeTurn t { s with agenda := r })

/-- The state with the instruction of `nbits` bits `w` stored where the next step fetches it: a Thumb instruction if
`nbits` is at most 16, else an ARM instruction. -/
def State.withFetchWord (s : State) (nbits w : Nat) : State :=
  (s.readyToFetch (decide (nbits ≤ 16))).placeInstr
    (wordBytes (BitVec.ofNat 32 w) (if nbits ≤ 16 then 2 else 4))

end Sys2Proof.Machine
end

