-- ==== Sys2Proof/Machine/View.lean ====
section
/-! DEFINITION. Memory as the core's loads see it: one byte at a time, through the write buffers (R122, R129), by the routing
and the byte lanes of a data access (R104, R112). The statements speak of memory through these. -/

namespace Sys2Proof.Machine

/-- The byte a pending AHB store supplies at an address, if it covers it. -/
def AhbEntry.byte? (e : AhbEntry) (a : Nat) : Option Byte :=
  if e.addr ≤ a ∧ a < e.addr + e.size then some (byteAt e.data (a - e.addr)) else none

/-- The byte of the youngest pending AHB store that covers an address: what memory holds there after the drain (R122,
R123). -/
def ahbBufferByte : List AhbEntry → Nat → Option Byte
  | [], _ => none
  | e :: r, a => match ahbBufferByte r a with
    | some b => some b
    | none => e.byte? a

/-- A place of memory: a byte offset of a TCM, or a byte address of the AHB. -/
abbrev Place := Port × Nat

/-- The byte at a place as a load of the core sees it: the youngest pending store to it, else the memory's own byte. -/
def State.seen (s : State) (q : Place) : Byte :=
  match q.1 with
  | .tcm t => s.tcmByte t q.2
  | .ahb => (ahbBufferByte s.ahbWB q.2).getD (s.ahbByte q.2)

/-- The lowest place of a data access of `size` bytes at `a`: the routing (R112), the aliasing of a TCM (R111), the forced
alignment (R118(b)) and the lanes (R104). -/
def State.firstPlace (s : State) (size : Nat) (a : Word) : Nat :=
  match s.dataPort a with
  | .tcm t => lane s.ctl.b size (s.tcmOffset t (forced size a))
  | .ahb => lane s.ctl.b size (forced size a)

/-- The places of a data access of `size` bytes at `a`, least significant byte first. -/
def State.places (s : State) (size : Nat) (a : Word) : List Place :=
  (span (s.firstPlace size a) size).map fun k => (s.dataPort a, k)

/-- The value that a data access of `size` bytes at `a` reads, right aligned. -/
def State.valueAt (s : State) (size : Nat) (a : Word) : Word := ofBytes ((s.places size a).map s.seen)

/-- The byte at an address of the core. -/
def State.byteAt (s : State) (a : Word) : Byte := (s.valueAt 1 a).setWidth 8

end Sys2Proof.Machine
end

