-- ==== Sys2Proof/WellFormed.lean ====
section
/-! DEFINITION. Which terms of `Instr` are instructions: `encodable` says that the operands fit the encoding the spec gives
the row (so that the words of another row are not meant), `check` names the first UNPREDICTABLE operand combination that
the operands alone decide (R180 to R184, R220, R300, R472, R536), `wf` is both. -/

namespace Sys2Proof

open Sys2Proof.Machine

/-- P = 0 and W = 1 in addressing mode 2 is the T form (R182, R359). -/
def notTForm (p w : Bool) : Bool := p || !w

/-- Bits [24:21] = 0010 of a coprocessor load or store are MCRR and MRRC (R404, R408, R410). -/
def notMcrr (p u n w : Bool) : Bool := !(!p && !u && n && !w)

/-- Coprocessors 14 and 15 have rows of their own (R406). -/
def otherCp (cp : BitVec 4) : Bool := cp != 14 && cp != 15

/-- The operands fit the row's encoding. -/
def Instr.encodable : Instr → Bool
  | .ldrImm _ p _ w _ _ _ => notTForm p w
  | .ldrReg _ p _ w _ _ _ _ _ => notTForm p w
  | .strImm _ p _ w _ _ _ => notTForm p w
  | .strReg _ p _ w _ _ _ _ _ => notTForm p w
  | .ldrbImm _ p _ w _ _ _ => notTForm p w
  | .ldrbReg _ p _ w _ _ _ _ _ => notTForm p w
  | .strbImm _ p _ w _ _ _ => notTForm p w
  | .strbReg _ p _ w _ _ _ _ _ => notTForm p w
  | .ldc _ p u n w _ _ _ _ => notMcrr p u n w
  | .stc _ p u n w _ _ _ _ => notMcrr p u n w
  | .ldc2 p u n w _ _ _ _ => notMcrr p u n w
  | .stc2 p u n w _ _ _ _ => notMcrr p u n w
  | .mcr _ _ _ _ cp _ _ => otherCp cp
  | .mrc _ _ _ _ cp _ _ => otherCp cp
  | .tBCond c _ => c != .al
  | _ => true

/-- The first UNPREDICTABLE operand combination of an instruction, if it has one; the meaning refuses it when its condition
passes (log 21). -/
def Instr.check : Instr → Option Unpred
  | .andImm .. => none
  | .andShImm .. => none
  | .andShReg _ _ rn rd rs _ rm => shRegCheck rn rd rs rm
  | .eorImm .. => none
  | .eorShImm .. => none
  | .eorShReg _ _ rn rd rs _ rm => shRegCheck rn rd rs rm
  | .subImm .. => none
  | .subShImm .. => none
  | .subShReg _ _ rn rd rs _ rm => shRegCheck rn rd rs rm
  | .rsbImm .. => none
  | .rsbShImm .. => none
  | .rsbShReg _ _ rn rd rs _ rm => shRegCheck rn rd rs rm
  | .addImm .. => none
  | .addShImm .. => none
  | .addShReg _ _ rn rd rs _ rm => shRegCheck rn rd rs rm
  | .adcImm .. => none
  | .adcShImm .. => none
  | .adcShReg _ _ rn rd rs _ rm => shRegCheck rn rd rs rm
  | .sbcImm .. => none
  | .sbcShImm .. => none
  | .sbcShReg _ _ rn rd rs _ rm => shRegCheck rn rd rs rm
  | .rscImm .. => none
  | .rscShImm .. => none
  | .rscShReg _ _ rn rd rs _ rm => shRegCheck rn rd rs rm
  | .tstImm _ _ z _ _ => fieldCheck z 0
  | .tstShImm _ _ z _ _ _ => fieldCheck z 0
  | .tstShReg _ rn z rs _ rm => shRegCheckZ z rn rs rm
  | .teqImm _ _ z _ _ => fieldCheck z 0
  | .teqShImm _ _ z _ _ _ => fieldCheck z 0
  | .teqShReg _ rn z rs _ rm => shRegCheckZ z rn rs rm
  | .cmpImm _ _ z _ _ => fieldCheck z 0
  | .cmpShImm _ _ z _ _ _ => fieldCheck z 0
  | .cmpShReg _ rn z rs _ rm => shRegCheckZ z rn rs rm
  | .cmnImm _ _ z _ _ => fieldCheck z 0
  | .cmnShImm _ _ z _ _ _ => fieldCheck z 0
  | .cmnShReg _ rn z rs _ rm => shRegCheckZ z rn rs rm
  | .orrImm .. => none
  | .orrShImm .. => none
  | .orrShReg _ _ rn rd rs _ rm => shRegCheck rn rd rs rm
  | .movImm _ _ z _ _ _ => fieldCheck z 0
  | .movShImm _ _ z _ _ _ _ => fieldCheck z 0
  | .movShReg _ _ z rd rs _ rm => shRegCheckZ z rd rs rm
  | .bicImm .. => none
  | .bicShImm .. => none
  | .bicShReg _ _ rn rd rs _ rm => shRegCheck rn rd rs rm
  | .mvnImm _ _ z _ _ _ => fieldCheck z 0
  | .mvnShImm _ _ z _ _ _ _ => fieldCheck z 0
  | .mvnShReg _ _ z rd rs _ rm => shRegCheckZ z rd rs rm
  | .clz _ o1 rd o2 rm => clzCheck o1 rd o2 rm
  | .mul _ _ rd z rs rm => mulCheck rd z rs rm
  | .mla _ _ rd rn rs rm => mlaCheck rd rn rs rm
  | .umull _ _ rdHi rdLo rs rm => longCheck rdHi rdLo rs rm
  | .umlal _ _ rdHi rdLo rs rm => longCheck rdHi rdLo rs rm
  | .smull _ _ rdHi rdLo rs rm => longCheck rdHi rdLo rs rm
  | .smlal _ _ rdHi rdLo rs rm => longCheck rdHi rdLo rs rm
  | .smlaXY _ rd rn rs _ _ rm => fourRegCheck rd rn rs rm
  | .smlawY _ rd rn rs _ rm => fourRegCheck rd rn rs rm
  | .smulwY _ rd z rs _ rm => threeRegCheck z rd rs rm
  | .smlalXY _ rdHi rdLo rs _ _ rm => smlalXYCheck rdHi rdLo rs rm
  | .smulXY _ rd z rs _ _ rm => threeRegCheck z rd rs rm
  | .qadd _ rn rd z rm => threeRegCheck z rn rd rm
  | .qsub _ rn rd z rm => threeRegCheck z rn rd rm
  | .qdadd _ rn rd z rm => threeRegCheck z rn rd rm
  | .qdsub _ rn rd z rm => threeRegCheck z rn rd rm
  | .b .. => none
  | .bl .. => none
  | .blxImm .. => none
  | .bx _ o _ => bxCheck o
  | .blxReg _ o rm => blxCheck o rm
  | .mrs _ _ o rd z1 z2 => mrsCheck o rd z1 z2
  | .msrReg _ _ _ o z rm => msrCheck o z rm
  | .msrImm _ _ _ o _ _ => fieldCheck o 15
  | .swi .. => none
  | .bkpt .. => none
  | .ldrImm _ p _ w rn rd _ => mode2ImmCheck false p w rn rd
  | .ldrReg _ p _ w rn rd _ _ rm => mode2RegCheck false p w rn rd rm
  | .strImm _ p _ w rn rd _ => mode2ImmCheck false p w rn rd
  | .strReg _ p _ w rn rd _ _ rm => mode2RegCheck false p w rn rd rm
  | .ldrbImm _ p _ w rn rd _ => mode2ImmCheck true p w rn rd
  | .ldrbReg _ p _ w rn rd _ _ rm => mode2RegCheck true p w rn rd rm
  | .strbImm _ p _ w rn rd _ => mode2ImmCheck true p w rn rd
  | .strbReg _ p _ w rn rd _ _ rm => mode2RegCheck true p w rn rd rm
  | .ldrtImm _ _ rn rd _ => mode2ImmCheck true false true rn rd
  | .ldrtReg _ _ rn rd _ _ rm => mode2RegCheck true false true rn rd rm
  | .strtImm _ _ rn rd _ => mode2ImmCheck true false true rn rd
  | .strtReg _ _ rn rd _ _ rm => mode2RegCheck true false true rn rd rm
  | .ldrbtImm _ _ rn rd _ => mode2ImmCheck true false true rn rd
  | .ldrbtReg _ _ rn rd _ _ rm => mode2RegCheck true false true rn rd rm
  | .strbtImm _ _ rn rd _ => mode2ImmCheck true false true rn rd
  | .strbtReg _ _ rn rd _ _ rm => mode2RegCheck true false true rn rd rm
  | .ldrhImm _ p _ w rn rd _ _ => mode3ImmCheck p w rn rd
  | .ldrhReg _ p _ w rn rd z rm => mode3RegCheck p w rn rd z rm
  | .strhImm _ p _ w rn rd _ _ => mode3ImmCheck p w rn rd
  | .strhReg _ p _ w rn rd z rm => mode3RegCheck p w rn rd z rm
  | .ldrsbImm _ p _ w rn rd _ _ => mode3ImmCheck p w rn rd
  | .ldrsbReg _ p _ w rn rd z rm => mode3RegCheck p w rn rd z rm
  | .ldrshImm _ p _ w rn rd _ _ => mode3ImmCheck p w rn rd
  | .ldrshReg _ p _ w rn rd z rm => mode3RegCheck p w rn rd z rm
  | .ldrdImm _ p _ w rn rd _ _ => ldrdImmCheck p w rn rd
  | .ldrdReg _ p _ w rn rd z rm => ldrdRegCheck p w rn rd z rm
  | .strdImm _ p _ w rn rd _ _ => strdImmCheck p w rn rd
  | .strdReg _ p _ w rn rd z rm => strdRegCheck p w rn rd z rm
  | .pldImm .. => none
  | .pldReg _ _ _ _ rm => noPcCheck rm
  | .ldm1 _ _ _ w rn list => ldmCheck w rn list
  | .ldm2 _ _ _ z rn list => userListCheck z rn (0#1 ++ list)
  | .ldm3 _ _ _ w rn list => ldmCheck w rn (1#1 ++ list)
  | .stm1 _ _ _ _ rn list => stmCheck rn list
  | .stm2 _ _ _ z rn list => userListCheck z rn list
  | .swp _ rn rd z rm => swapCheck rn rd z rm
  | .swpb _ rn rd z rm => swapCheck rn rd z rm
  | .cdp .. => none
  | .ldc .. => none
  | .stc .. => none
  | .mcr .. => none
  | .mrc .. => none
  | .mcrr .. => none
  | .mrrc .. => none
  | .cdp2 .. => none
  | .ldc2 .. => none
  | .stc2 .. => none
  | .mcr2 .. => none
  | .mrc2 .. => none
  | .mcr15 _ _ _ rd _ _ => noPcCheck rd
  | .mrc15 _ _ _ rd _ _ => noPcCheck rd
  | .mcr14 _ _ _ rd _ _ => noPcCheck rd
  | .mrc14 _ _ _ rd _ _ => noPcCheck rd
  | .undefMedia .. => none
  | .undefMisc .. => none
  | .tLslImm .. => none
  | .tLsrImm .. => none
  | .tAsrImm .. => none
  | .tAddReg .. => none
  | .tSubReg .. => none
  | .tAddImm3 .. => none
  | .tSubImm3 .. => none
  | .tMovImm .. => none
  | .tCmpImm .. => none
  | .tAddImm8 .. => none
  | .tSubImm8 .. => none
  | .tAnd .. => none
  | .tEor .. => none
  | .tLslReg .. => none
  | .tLsrReg .. => none
  | .tAsrReg .. => none
  | .tAdc .. => none
  | .tSbc .. => none
  | .tRor .. => none
  | .tTst .. => none
  | .tNeg .. => none
  | .tCmpReg .. => none
  | .tCmn .. => none
  | .tOrr .. => none
  | .tMul rm rd => thumbMulCheck rm rd
  | .tBic .. => none
  | .tMvn .. => none
  | .tAddHi h1 h2 _ _ => hiCheck h1 h2
  | .tCmpHi h1 h2 _ rn => hiCmpCheck h1 h2 rn
  | .tMovHi h1 h2 _ _ => hiCheck h1 h2
  | .tAddPc .. => none
  | .tAddSp .. => none
  | .tIncSp .. => none
  | .tDecSp .. => none
  | .tBx _ _ z => fieldCheck z 0
  | .tBlxReg h2 rm z => thumbBlxCheck h2 rm z
  | .tLdrPc .. => none
  | .tStrReg .. => none
  | .tStrhReg .. => none
  | .tStrbReg .. => none
  | .tLdrsb .. => none
  | .tLdrReg .. => none
  | .tLdrhReg .. => none
  | .tLdrbReg .. => none
  | .tLdrsh .. => none
  | .tStrImm .. => none
  | .tLdrImm .. => none
  | .tStrbImm .. => none
  | .tLdrbImm .. => none
  | .tStrhImm .. => none
  | .tLdrhImm .. => none
  | .tStrSp .. => none
  | .tLdrSp .. => none
  | .tPush r list => pushCheck r list
  | .tPop r list => pushCheck r list
  | .tBkpt .. => none
  | .tStmia rn list => stmiaCheck rn list
  | .tLdmia _ list => listCheck list
  | .tBCond .. => none
  | .tUndef .. => none
  | .tSwi .. => none
  | .tB .. => none
  | .tBlxSuffix .. => none
  | .tBlPrefix .. => none
  | .tBlSuffix .. => none

/-- A well-formed instruction. -/
def Instr.wf (i : Instr) : Bool := i.encodable && i.check.isNone

end Sys2Proof
end

