-- ==== Sys2Proof/Safety.lean ====
section
/-! DEFINITION. The vocabulary of the statements: when a data access completes, what an instruction does and leaves alone,
and the invariants of the machine. -/

namespace Sys2Proof.Machine

/-! ### When a data access completes -/

/-- What a data access does: a load, a store, or a half of a swap. -/
inductive Dir where
  | read | write | swapRead | swapWrite
deriving DecidableEq, Repr

/-- The kind of AHB transfer that a data access makes (R120, R125, R148). -/
def State.busKind (s : State) (d : Dir) (a : Word) : AhbKind :=
  match d with
  | .read => .read
  | .write => s.writeKind a false
  | .swapRead => .swapRead
  | .swapWrite => .swapWrite

/-- A data access of `size` bytes at `a` with the privilege `priv` completes normally: no alignment fault (R118), no watchpoint
(R604), a TCM that exists (R113) without error support (R143), no AHB error (R142). -/
def State.Answers (s : State) (d : Dir) (size : Nat) (priv : Bool) (a : Word) : Prop :=
  s.alignFault size a = false ∧ s.watched = false ∧
    match s.dataPort a with
    | .tcm t => s.tcmSize t ≠ 0 ∧ s.params.tcmErrors = false
    | .ahb => s.ahbError (s.busKind d a) (s.firstPlace size a) size priv = false

/-- A transfer of `n` words from `start` up completes normally, and no other agent acts between the words. -/
def State.AnswersAll (s : State) (d : Dir) (n : Nat) (start : Word) : Prop :=
  s.inside = [] ∧ ∀ j < n, s.Answers d 4 s.priv (start + BitVec.ofNat 32 (4 * j))

/-- No pending AHB store will be answered with an error (R146, U40). -/
def State.CleanAhb (s : State) : Prop := ∀ e ∈ s.ahbWB, s.ahbError .buffered e.addr e.size e.priv = false

/-- No pending store of a TCM will meet an error (R143, U40). -/
def State.CleanTcm (s : State) (m : Tcm) : Prop := ∀ e ∈ s.tcmWB m, s.tcmWriteError m e.off = false

/-- No pending store will meet an error (R143, R146, U40), so that memory will hold what was stored. -/
def State.Clean (s : State) : Prop := s.CleanAhb ∧ ∀ m : Tcm, s.CleanTcm m

/-- Nothing but the access itself decides how it ends: the core is not halted, no watchpoint is latched or looked for, no pending
store will be answered with an error. -/
def State.Quiet (s : State) : Prop :=
  s.dbg.halted = false ∧ s.dbg.wptLatch = false ∧ s.watched = false ∧ s.Clean

/-- A data access to the AHB is answered with an error that the core sees: not that of a buffered store (R142, R146). -/
def State.BusError (s : State) (d : Dir) (size : Nat) (priv : Bool) (a : Word) : Prop :=
  s.dataPort a = .ahb ∧ s.busKind d a ≠ .buffered ∧
    s.ahbError (s.busKind d a) (s.firstPlace size a) size priv = true

/-! ### What an instruction does and leaves alone -/

/-- The physical register that an index 0 to 14 names in the current mode (R32). -/
def State.phys (s : State) (r : Reg) : PhysReg := physReg s.cpsr.m r

/-- The address of the next instruction in sequence (R18). -/
def State.nextAddr (s : State) : Word := s.pc + BitVec.ofNat 32 s.instrLen

/-- A store of the low `size` bytes of `value` at `addr`. -/
structure Store where
  addr : Word
  size : Nat
  value : Word
deriving DecidableEq, Repr

/-- The listed registers hold the listed values; every other one of the thirty is unchanged. -/
def RegistersBecome (dst : List (PhysReg × Word)) (s t : State) : Prop :=
  (∀ x ∈ dst, t.getPhys x.1 = x.2) ∧ ∀ p : PhysReg, p ∉ dst.map Prod.fst → t.getPhys p = s.getPhys p

/-- The places of the stores hold the bytes of their values; every other byte of memory reads as before. -/
def MemoryBecomes (writes : List Store) (s t : State) : Prop :=
  (∀ w ∈ writes, (s.places w.size w.addr).map t.seen = wordBytes w.value w.size) ∧
    ∀ q : Place, (∀ w ∈ writes, q ∉ s.places w.size w.addr) → t.seen q = s.seen q

/-- Every byte of memory reads as before. -/
def MemoryStays (s t : State) : Prop := MemoryBecomes [] s t

/-- Everything but the registers, the status registers, memory and its buffers, the fetch sequence and the model's counter
is unchanged: CP15, CP14, the debug logic, Standby, the prefetch buffer, the pins, the error maps, the parameters. -/
def SystemStays (s t : State) : Prop :=
  t = { s with regs := t.regs, pc := t.pc, cpsr := t.cpsr, spsrs := t.spsrs, unrecoverable := t.unrecoverable,
               itcm := t.itcm, dtcm := t.dtcm, ahb := t.ahb, itcmWB := t.itcmWB, dtcmWB := t.dtcmWB, ahbWB := t.ahbWB,
               pipe := t.pipe, nonseq := t.nonseq, pastTop := t.pastTop, bankHazard := t.bankHazard,
               oldRoutes := t.oldRoutes, free := t.free }

/-- `r` goes on with a state whose pc is `pc`, whose CPSR is `p`, whose registers and memory differ from `s` only as `dst`
and `writes` say, and in which everything else is as before. -/
def Gives (r : Result) (s : State) (pc : Word) (p : Psr) (dst : List (PhysReg × Word)) (writes : List Store) : Prop :=
  ∃ t, r = .next t ∧ t.pc = pc ∧ t.cpsr = p ∧ RegistersBecome dst s t ∧ MemoryBecomes writes s t ∧
    t.spsrs = s.spsrs ∧ t.unrecoverable = s.unrecoverable ∧ SystemStays s t

/-- An instruction that stores nothing and does not branch: the registers `dst` and the CPSR `p`. -/
def Computes (i : Instr) (s : State) (p : Psr) (dst : List (PhysReg × Word)) : Prop :=
  Gives (exec i s) s s.nextAddr p dst []

/-- `r` takes the exception `e` (R570, R571) from the state `s`: the saved pc and status, the mode, T, I, F and the vector;
the other registers, memory and everything else are as before. -/
def Enters (r : Result) (s : State) (e : Exc) : Prop :=
  ∃ t, r = .next t ∧
    t.pc = s.vectorBase + e.offset ∧
    t.cpsr = { s.cpsr with m := e.mode.bits, t := false, i := true, f := s.cpsr.f || e == .fiq } ∧
    t.spsr e.mode = s.cpsr ∧ (∀ e' : ExcMode, e' ≠ e.mode → t.spsr e' = s.spsr e') ∧
    RegistersBecome [(e.mode.linkReg, s.pc + e.linkOffset s.cpsr.t)] s t ∧
    MemoryStays s t ∧ t.unrecoverable = s.unrecoverable ∧ SystemStays s t

/-- `r` goes on with the Data Abort of an instruction executed in the state `s` (R545, R351, R387): the saved pc and status, the
mode, T, I and the vector; the registers but r14_abt and those in `lost`, the bytes of memory but those of the stores `touched`
(an address and a size), and everything else are as before. -/
def Aborts (r : Result) (s : State) (lost : List PhysReg) (touched : List (Word × Nat)) : Prop :=
  ∃ t, r = .next t ∧ t.pc = s.vectorBase + 0x10 ∧ t.cpsr = { s.cpsr with m := modeAbt, t := false, i := true } ∧
    t.spsrs = { s.spsrs with abt := s.cpsr } ∧ t.getPhys .r14_abt = s.pc + 8 ∧
    (∀ q : PhysReg, q ≠ .r14_abt → q ∉ lost → t.getPhys q = s.getPhys q) ∧
    (∀ q : Place, (∀ w ∈ touched, q ∉ s.places w.2 w.1) → t.seen q = s.seen q) ∧
    t.unrecoverable = s.unrecoverable ∧ SystemStays s t

/-- The base register's new value, if the form writes it back (R350). -/
def State.back (s : State) (rn : Reg) (x : Address) : List (PhysReg × Word) :=
  match x.wb with
  | some w => [(s.phys rn, w)]
  | none => []

/-- The registers of a multiple transfer but r15, each with its word from `start` up. -/
def State.loaded (s : State) (place : Reg → PhysReg) (list : BitVec 16) (start : Word) : List (PhysReg × Word) :=
  ((listed list).zipIdx.filter fun x => x.1 != 15).map fun x =>
    (place x.1, s.valueAt 4 (start + BitVec.ofNat 32 (4 * x.2)))

/-- The stores of a multiple transfer, from `start` up. -/
def storesOf (values : List Word) (start : Word) : List Store :=
  values.zipIdx.map fun x => { addr := start + BitVec.ofNat 32 (4 * x.2), size := 4, value := x.1 }

/-! ### The three operand forms of data processing -/

/-- A shifter operand as an instruction encodes it (R176 to R178). -/
inductive Operand2 where
  | imm (rot : BitVec 4) (imm : BitVec 8)
  | shImm (sa : BitVec 5) (sh : Shift) (rm : Reg)
  | shReg (rs : Reg) (sh : Shift) (rm : Reg)
deriving DecidableEq, Repr

/-- The instruction with this operand, of the three constructors of an operation. -/
def Operand2.form (o : Operand2) (f : BitVec 4 → BitVec 8 → Instr) (g : BitVec 5 → Shift → Reg → Instr)
    (h : Reg → Shift → Reg → Instr) : Instr :=
  match o with
  | .imm rot v => f rot v
  | .shImm sa sh rm => g sa sh rm
  | .shReg rs sh rm => h rs sh rm

/-- The value of the operand and its carry out (R176 to R178). -/
def Operand2.eval (o : Operand2) (s : State) : Shifted :=
  match o with
  | .imm rot v => immOperand rot v s.cpsr.c
  | .shImm sa sh rm => shiftByImm sh sa (s.reg rm) s.cpsr.c
  | .shReg rs sh rm => shiftByReg sh (shiftAmount (s.reg rs)) (s.reg rm) s.cpsr.c

/-- With a register-specified shift no register is r15 (R178). -/
def Operand2.Allows (o : Operand2) (regs : List Reg) : Prop :=
  match o with
  | .shReg rs _ rm => rs ≠ 15 ∧ rm ≠ 15 ∧ 15 ∉ regs
  | _ => True

/-! ### Flags, each by a rule of its own -/

/-- N and Z of a result, C from the shifter (R276, logical class), if the S bit is set. -/
def flagsLogical (sf : Bool) (p : Psr) (r : Word) (c : Bool) : Psr :=
  if sf then { p with n := r.getLsbD 31, z := decide (r = 0), c := c } else p

/-- The flags of `x + y + carry` (R276, R22): C when the unsigned sum needs 33 bits, V when both operands have one sign and
the result the other. -/
def flagsAdd (sf : Bool) (p : Psr) (x y : Word) (carry : Bool) : Psr :=
  let r := x + y + (if carry then 1 else 0)
  if sf then { p with n := r.getLsbD 31, z := decide (r = 0)
                      c := decide (2 ^ 32 ≤ x.toNat + y.toNat + (if carry then 1 else 0))
                      v := x.getLsbD 31 == y.getLsbD 31 && r.getLsbD 31 != x.getLsbD 31 } else p

/-- The flags of `x - y - borrow` (R276, R22): C when there is no unsigned borrow, V when the operands differ in sign and the
result has not the sign of `x`. -/
def flagsSub (sf : Bool) (p : Psr) (x y : Word) (borrow : Bool) : Psr :=
  let r := x - y - (if borrow then 1 else 0)
  if sf then { p with n := r.getLsbD 31, z := decide (r = 0)
                      c := decide (y.toNat + (if borrow then 1 else 0) ≤ x.toNat)
                      v := x.getLsbD 31 != y.getLsbD 31 && r.getLsbD 31 != x.getLsbD 31 } else p

/-! ### Data processing, each operation by the formula of its rule -/

/-- The instruction of an operation, its Should Be Zero field 0; the compares have no S bit and no Rd, MOV and MVN no Rn. -/
def DpOp.instr (op : DpOp) (c : Cond) (sf : Bool) (rn rd : Reg) (o : Operand2) : Instr :=
  match op with
  | .and => o.form (.andImm c sf rn rd) (.andShImm c sf rn rd) (.andShReg c sf rn rd)
  | .eor => o.form (.eorImm c sf rn rd) (.eorShImm c sf rn rd) (.eorShReg c sf rn rd)
  | .sub => o.form (.subImm c sf rn rd) (.subShImm c sf rn rd) (.subShReg c sf rn rd)
  | .rsb => o.form (.rsbImm c sf rn rd) (.rsbShImm c sf rn rd) (.rsbShReg c sf rn rd)
  | .add => o.form (.addImm c sf rn rd) (.addShImm c sf rn rd) (.addShReg c sf rn rd)
  | .adc => o.form (.adcImm c sf rn rd) (.adcShImm c sf rn rd) (.adcShReg c sf rn rd)
  | .sbc => o.form (.sbcImm c sf rn rd) (.sbcShImm c sf rn rd) (.sbcShReg c sf rn rd)
  | .rsc => o.form (.rscImm c sf rn rd) (.rscShImm c sf rn rd) (.rscShReg c sf rn rd)
  | .tst => o.form (.tstImm c rn 0) (.tstShImm c rn 0) (.tstShReg c rn 0)
  | .teq => o.form (.teqImm c rn 0) (.teqShImm c rn 0) (.teqShReg c rn 0)
  | .cmp => o.form (.cmpImm c rn 0) (.cmpShImm c rn 0) (.cmpShReg c rn 0)
  | .cmn => o.form (.cmnImm c rn 0) (.cmnShImm c rn 0) (.cmnShReg c rn 0)
  | .orr => o.form (.orrImm c sf rn rd) (.orrShImm c sf rn rd) (.orrShReg c sf rn rd)
  | .mov => o.form (.movImm c sf 0 rd) (.movShImm c sf 0 rd) (.movShReg c sf 0 rd)
  | .bic => o.form (.bicImm c sf rn rd) (.bicShImm c sf rn rd) (.bicShReg c sf rn rd)
  | .mvn => o.form (.mvnImm c sf 0 rd) (.mvnShImm c sf 0 rd) (.mvnShReg c sf 0 rd)

/-- The result of an operation on `n = R[Rn]`, the shifter operand `x` and the C flag (R278 to R293). -/
def DpOp.result (op : DpOp) (n x : Word) (c : Bool) : Word :=
  match op with
  | .and => n &&& x
  | .eor => n ^^^ x
  | .sub => n - x
  | .rsb => x - n
  | .add => n + x
  | .adc => n + x + (if c then 1 else 0)
  | .sbc => n - x - (if c then 0 else 1)
  | .rsc => x - n - (if c then 0 else 1)
  | .tst => n &&& x
  | .teq => n ^^^ x
  | .cmp => n - x
  | .cmn => n + x
  | .orr => n ||| x
  | .mov => x
  | .bic => n &&& ~~~x
  | .mvn => ~~~x

/-- The CPSR after an operation (R276). -/
def DpOp.status (op : DpOp) (sf : Bool) (n : Word) (x : Shifted) (p : Psr) : Psr :=
  match op with
  | .sub => flagsSub sf p n x.value false
  | .rsb => flagsSub sf p x.value n false
  | .add => flagsAdd sf p n x.value false
  | .adc => flagsAdd sf p n x.value p.c
  | .sbc => flagsSub sf p n x.value (!p.c)
  | .rsc => flagsSub sf p x.value n (!p.c)
  | .cmp => flagsSub sf p n x.value false
  | .cmn => flagsAdd sf p n x.value false
  | _ => flagsLogical sf p (op.result n x.value p.c) x.carry

/-! ### Arithmetic of the multiplies and the saturating instructions -/

/-- A half of a register, sign-extended (R307). -/
def halfWord (v : Word) (top : Bool) : Word := (if top then v.sshiftRight 16 else (v.setWidth 16).signExtend 32)

/-- The sum of two words is not their signed sum. -/
def sumOverflows (x y : Word) : Bool := x.getLsbD 31 == y.getLsbD 31 && (x + y).getLsbD 31 != x.getLsbD 31

/-- The nearest integer that 32 bits hold (R22). -/
def clamp (x : Int) : Int := max (-2 ^ 31) (min (2 ^ 31 - 1) x)

/-! ### Single data accesses -/

/-- The one data access of an instruction. -/
structure Access where
  kind : Dir
  size : Nat
  priv : Bool
  addr : Word
deriving DecidableEq, Repr

/-- The data access of a single load or store (R350, R480), none for the other instructions. -/
def State.access (s : State) (i : Instr) : Option Access :=
  match i with
  | .ldrImm _ p u w rn _ off => some ⟨.read, 4, s.priv, (s.mode2Imm p u w rn off).addr⟩
  | .ldrReg _ p u w rn _ sa sh rm => some ⟨.read, 4, s.priv, (s.mode2Reg p u w rn sa sh rm).addr⟩
  | .strImm _ p u w rn _ off => some ⟨.write, 4, s.priv, (s.mode2Imm p u w rn off).addr⟩
  | .strReg _ p u w rn _ sa sh rm => some ⟨.write, 4, s.priv, (s.mode2Reg p u w rn sa sh rm).addr⟩
  | .ldrbImm _ p u w rn _ off => some ⟨.read, 1, s.priv, (s.mode2Imm p u w rn off).addr⟩
  | .ldrbReg _ p u w rn _ sa sh rm => some ⟨.read, 1, s.priv, (s.mode2Reg p u w rn sa sh rm).addr⟩
  | .strbImm _ p u w rn _ off => some ⟨.write, 1, s.priv, (s.mode2Imm p u w rn off).addr⟩
  | .strbReg _ p u w rn _ sa sh rm => some ⟨.write, 1, s.priv, (s.mode2Reg p u w rn sa sh rm).addr⟩
  | .ldrtImm _ u rn _ off => some ⟨.read, 4, false, (s.mode2Imm false u true rn off).addr⟩
  | .ldrtReg _ u rn _ sa sh rm => some ⟨.read, 4, false, (s.mode2Reg false u true rn sa sh rm).addr⟩
  | .strtImm _ u rn _ off => some ⟨.write, 4, false, (s.mode2Imm false u true rn off).addr⟩
  | .strtReg _ u rn _ sa sh rm => some ⟨.write, 4, false, (s.mode2Reg false u true rn sa sh rm).addr⟩
  | .ldrbtImm _ u rn _ off => some ⟨.read, 1, false, (s.mode2Imm false u true rn off).addr⟩
  | .ldrbtReg _ u rn _ sa sh rm => some ⟨.read, 1, false, (s.mode2Reg false u true rn sa sh rm).addr⟩
  | .strbtImm _ u rn _ off => some ⟨.write, 1, false, (s.mode2Imm false u true rn off).addr⟩
  | .strbtReg _ u rn _ sa sh rm => some ⟨.write, 1, false, (s.mode2Reg false u true rn sa sh rm).addr⟩
  | .ldrhImm _ p u w rn _ immH immL => some ⟨.read, 2, s.priv, (s.mode3Imm p u w rn immH immL).addr⟩
  | .ldrhReg _ p u w rn _ _ rm => some ⟨.read, 2, s.priv, (s.mode3Reg p u w rn rm).addr⟩
  | .strhImm _ p u w rn _ immH immL => some ⟨.write, 2, s.priv, (s.mode3Imm p u w rn immH immL).addr⟩
  | .strhReg _ p u w rn _ _ rm => some ⟨.write, 2, s.priv, (s.mode3Reg p u w rn rm).addr⟩
  | .ldrsbImm _ p u w rn _ immH immL => some ⟨.read, 1, s.priv, (s.mode3Imm p u w rn immH immL).addr⟩
  | .ldrsbReg _ p u w rn _ _ rm => some ⟨.read, 1, s.priv, (s.mode3Reg p u w rn rm).addr⟩
  | .ldrshImm _ p u w rn _ immH immL => some ⟨.read, 2, s.priv, (s.mode3Imm p u w rn immH immL).addr⟩
  | .ldrshReg _ p u w rn _ _ rm => some ⟨.read, 2, s.priv, (s.mode3Reg p u w rn rm).addr⟩
  | .tLdrImm imm rn _ => some ⟨.read, 4, s.priv, s.reg rn.reg + scaled 2 imm⟩
  | .tLdrReg rm rn _ => some ⟨.read, 4, s.priv, s.reg rn.reg + s.reg rm.reg⟩
  | .tLdrPc _ imm => some ⟨.read, 4, s.priv, s.pcAligned + scaled 2 imm⟩
  | .tLdrSp _ imm => some ⟨.read, 4, s.priv, s.reg 13 + scaled 2 imm⟩
  | .tLdrbImm imm rn _ => some ⟨.read, 1, s.priv, s.reg rn.reg + scaled 0 imm⟩
  | .tLdrbReg rm rn _ => some ⟨.read, 1, s.priv, s.reg rn.reg + s.reg rm.reg⟩
  | .tLdrhImm imm rn _ => some ⟨.read, 2, s.priv, s.reg rn.reg + scaled 1 imm⟩
  | .tLdrhReg rm rn _ => some ⟨.read, 2, s.priv, s.reg rn.reg + s.reg rm.reg⟩
  | .tLdrsb rm rn _ => some ⟨.read, 1, s.priv, s.reg rn.reg + s.reg rm.reg⟩
  | .tLdrsh rm rn _ => some ⟨.read, 2, s.priv, s.reg rn.reg + s.reg rm.reg⟩
  | .tStrImm imm rn _ => some ⟨.write, 4, s.priv, s.reg rn.reg + scaled 2 imm⟩
  | .tStrReg rm rn _ => some ⟨.write, 4, s.priv, s.reg rn.reg + s.reg rm.reg⟩
  | .tStrSp _ imm => some ⟨.write, 4, s.priv, s.reg 13 + scaled 2 imm⟩
  | .tStrbImm imm rn _ => some ⟨.write, 1, s.priv, s.reg rn.reg + scaled 0 imm⟩
  | .tStrbReg rm rn _ => some ⟨.write, 1, s.priv, s.reg rn.reg + s.reg rm.reg⟩
  | .tStrhImm imm rn _ => some ⟨.write, 2, s.priv, s.reg rn.reg + scaled 1 imm⟩
  | .tStrhReg rm rn _ => some ⟨.write, 2, s.priv, s.reg rn.reg + s.reg rm.reg⟩
  | _ => none

/-- The transfer of an instruction of several words: what it does, the address of its first word, their number, the alignment that
A = 1 asks for (R118), and the registers that an abort leaves unknown (R351, R387). -/
structure Transfer where
  kind : Dir
  addr : Word
  count : Nat
  align : Nat
  lost : List PhysReg
deriving DecidableEq, Repr

/-- The registers of a list that an abort leaves unknown: not the pc, not the base, which may be the pc (R351, R387). -/
def State.lostIn (s : State) (place : Reg → PhysReg) (rn : Reg) (regs : List Reg) : List PhysReg :=
  ((regs.filter fun r => r != 15).map place).filter fun p => rn == 15 || p != s.phys rn

/-- The transfer of LDM and STM, from its lowest address (R385). -/
def State.block (s : State) (d : Dir) (p u : Bool) (place : Reg → PhysReg) (rn : Reg) (list : BitVec 16) : Transfer :=
  { kind := d, addr := multiStart p u (listed list).length (s.reg rn), count := (listed list).length, align := 4,
    lost := if d = .read then s.lostIn place rn (listed list) else [] }

/-- The transfer of LDRD and STRD (R370, R371). -/
def State.pair (s : State) (d : Dir) (rn rd : Reg) (x : Address) : Transfer :=
  { kind := d, addr := x.addr, count := 2, align := 8, lost := if d = .read then s.lostIn s.phys rn [rd, rd + 1] else [] }

/-- The transfer of an instruction of several words; none for the other instructions, and none for LDM(2), LDM(3) and STM(2) in
the modes that refuse them (R389, R390, R392). -/
def State.transfer (s : State) (i : Instr) : Option Transfer :=
  let banked := (excMode s.cpsr.m).isSome
  match i with
  | .ldrdImm _ p u w rn rd immH immL => some (s.pair .read rn rd (s.mode3Imm p u w rn immH immL))
  | .ldrdReg _ p u w rn rd _ rm => some (s.pair .read rn rd (s.mode3Reg p u w rn rm))
  | .strdImm _ p u w rn rd immH immL => some (s.pair .write rn rd (s.mode3Imm p u w rn immH immL))
  | .strdReg _ p u w rn rd _ rm => some (s.pair .write rn rd (s.mode3Reg p u w rn rm))
  | .ldm1 _ p u _ rn list => some (s.block .read p u s.phys rn list)
  | .ldm2 _ p u _ rn l => if banked then some (s.block .read p u userReg rn (0#1 ++ l)) else none
  | .ldm3 _ p u _ rn l => if banked then some (s.block .read p u s.phys rn (1#1 ++ l)) else none
  | .stm1 _ p u _ rn list => some (s.block .write p u s.phys rn list)
  | .stm2 _ p u _ rn list => if banked then some (s.block .write p u userReg rn list) else none
  | .tPush r l => some (s.block .write true false s.phys 13 ((if r then 0x40#8 else 0) ++ l))
  | .tPop r l => some (s.block .read false true s.phys 13 ((if r then 0x80#8 else 0) ++ l))
  | .tStmia rn l => some (s.block .write false true s.phys rn.reg (0#8 ++ l))
  | .tLdmia rn l => some (s.block .read false true s.phys rn.reg (0#8 ++ l))
  | _ => none

/-- The address of the word `j` of a transfer. -/
def Transfer.word (x : Transfer) (j : Nat) : Word := x.addr + BitVec.ofNat 32 (4 * j)

/-- A transfer that passes the alignment check, all of whose words go to the AHB, and one of whose words is answered there with
an error that the core sees. -/
def State.TransferFails (s : State) (x : Transfer) : Prop :=
  s.inside = [] ∧ s.alignFault x.align x.addr = false ∧ (x.align = 8 → x.addr.toNat % 8 = 0) ∧
    (∀ j < x.count, s.dataPort (x.word j) = .ahb) ∧ ∃ j < x.count, s.BusError x.kind 4 s.priv (x.word j)

/-- A load of `size` bytes at `a` that brings what memory holds: the access completes, no pending store will be answered with
an error, and a halfword address is even (R118, U3). -/
def State.LoadReady (s : State) (size : Nat) (priv : Bool) (a : Word) : Prop :=
  s.Clean ∧ s.Answers .read size priv a ∧ (size = 2 → misaligned 2 a = false)

/-- A store of `size` bytes at `a` that completes without an error. -/
def State.StoreReady (s : State) (size : Nat) (priv : Bool) (a : Word) : Prop :=
  s.Clean ∧ s.Answers .write size priv a ∧ (size = 2 → misaligned 2 a = false)

/-- The state with no watchpoint to match: neither the debugger nor the DBGDEWPT pin asks for one. -/
def State.unwatched (s : State) : State :=
  { s with dbg := { s.dbg with wptMatch := [] }, pins := { s.pins with dwpt := false } }

/-- The debug logic after an entry to debug state with `view` for r15 (R602, R604). -/
def Debug.afterEntry (d : Debug) (t : Bool) (view : Word) : Debug :=
  { d with halted := true, wptLatch := false, statusT := t, pcView := view }

/-- A single load: the base as the form writes it back, and the destination. -/
def Loads (i : Instr) (s : State) (rn rd : Reg) (x : Address) (v : Word) : Prop :=
  Gives (exec i s) s s.nextAddr s.cpsr (s.back rn x ++ [(s.phys rd, v)]) []

/-- A single store: the base as the form writes it back, and the bytes stored. -/
def Stores (i : Instr) (s : State) (rn : Reg) (x : Address) (size : Nat) (v : Word) : Prop :=
  Gives (exec i s) s s.nextAddr s.cpsr (s.back rn x) [⟨x.addr, size, v⟩]

/-- A byte, zero-extended or sign-extended. -/
def State.loadByte (s : State) (signed : Bool) (a : Word) : Word :=
  if signed then ((s.valueAt 1 a).setWidth 8).signExtend 32 else s.valueAt 1 a

/-- A halfword, zero-extended or sign-extended. -/
def State.loadHalf (s : State) (signed : Bool) (a : Word) : Word :=
  if signed then ((s.valueAt 2 a).setWidth 16).signExtend 32 else s.valueAt 2 a

/-- A word as LDR brings it: rotated right by eight times the low two address bits (R353). -/
def State.loadWord (s : State) (a : Word) : Word := (s.valueAt 4 a).rotateRight (8 * (a.toNat % 4))

/-! ### Fetch -/

/-- The instruction that memory holds at the pc: the ITCM if it is enabled and the address is in its region, else the AHB
(R112); the word, or the halfword of the byte order (R104, R107). -/
def State.codeAtPc (s : State) : Code :=
  let n := s.instrLen
  let w := if s.ctl.i && decide (s.pc.toNat < 0x400000) then
      ofBytes ((span (lane s.ctl.b n (s.tcmOffset .itcm s.pc.toNat)) n).map fun k => s.seen (.tcm .itcm, k))
    else ofBytes ((span (lane s.ctl.b n s.pc.toNat) n).map fun k => s.seen (.ahb, k))
  if s.cpsr.t then .thumb (w.setWidth 16) else .arm w

/-! ### Reset -/

/-- What Reset sets with the parameters `p` (R90, R620, R621). -/
def ResetValues (p : Params) (s : State) : Prop :=
  s.cpsr.m = 0b10011 ∧ s.cpsr.t = false ∧ s.cpsr.i = true ∧ s.cpsr.f = true ∧
    s.pc = (if p.vinithi then 0xFFFF0000 else 0) ∧
    s.ctl.toWord = 0x00000F70 ||| (if p.vinithi then 0x2000 else 0) ||| (if p.initram then 0x1004 else 0) ∧
    s.cfg.toWord = 0x00000004 ∧ s.procId = 0 ∧ s.standby = false ∧ s.unrecoverable = false ∧ s.dbg.halted = false ∧
    s.ahbWB = [] ∧ s.itcmWB = [] ∧ s.dtcmWB = [] ∧ s.ipb = [] ∧ s.pipe = [] ∧ s.params = p

/-! ### Invariants -/

/-- The three memories are in canonical form. -/
def State.MemWf (s : State) : Prop := s.itcm.wf = true ∧ s.dtcm.wf = true ∧ s.ahb.wf = true

/-- The mode is one of the seven, or the core is unrecoverable (R45, R46). -/
def State.ModeOk (s : State) : Prop := s.unrecoverable = true ∨ legalMode s.cpsr.m = true

/-- The pc is aligned for the state: 4 in ARM state, 2 in Thumb state (R37). -/
def State.PcAligned (s : State) : Prop := s.pc.toNat % s.instrLen = 0

/-- No buffer holds more than its depth: four data words and two address entries in the AHB write buffer, two entries in each
TCM write buffer, four words in the prefetch buffer (R67 to R69). -/
def State.BuffersFit (s : State) : Prop :=
  s.ahbWB.length ≤ 4 ∧ (s.ahbWB.filter fun e => e.first).length ≤ 2 ∧ s.itcmWB.length ≤ 2 ∧ s.dtcmWB.length ≤ 2 ∧
    s.ipb.length ≤ 4

/-- Nothing but the fetch at the pc stands before the core's next instruction: parameters and pins that the spec gives meaning to,
no other agent's turn, no stop, no request, no interrupt to take, no watchpoint latched. -/
def State.Undisturbed (s : State) : Prop :=
  s.forbidden = none ∧ s.agenda = [] ∧ s.unrecoverable = false ∧ s.dbg.halted = false ∧ s.debugRequest = false ∧ s.pins.fifofull = false ∧
    s.etmRun = none ∧ s.standby = false ∧ s.pastTop = false ∧ s.takesFiq = false ∧ s.takesIrq = false ∧
    s.dbg.wptLatch = false

end Sys2Proof.Machine
end

