-- ==== Sys2Proof/Certificates/Slice0/Obligations.lean ====
section
/-! DEFINITION. The statements for the provers. Each docstring names the rules it states. Words used: `Gives`, `Computes`,
`Loads`, `Stores`, `Enters` (Safety.lean) say that an instruction completes and name everything it changes; `check = none`
says that its operands are none of the UNPREDICTABLE combinations (WellFormed.lean); `s.cpsr.passes c` that its condition
holds (R172). -/

open Sys2Proof Sys2Proof.Machine

/-! ### Encoding -/

/-- Words written out in the rules of spec/ decode to the instructions they stand for (R278, R282, R301, R332, R344, R352,
R388, R241, R426, R500, R510, R521). -/
def Obligations.WordsOfTheSpecDecode : Prop :=
  decode (.arm 0xE20100FF) = .ok (.andImm .al false 1 0 0 0xFF) ∧
  decode (.arm 0xE0810102) = .ok (.addShImm .al false 1 0 2 .lsl 2) ∧
  decode (.arm 0xE0000291) = .ok (.mul .al false 0 0 2 1) ∧
  decode (.arm 0x1AFFFFFC) = .ok (.b .ne 0xFFFFFC) ∧
  decode (.arm 0xEF123456) = .ok (.swi .al 0x123456) ∧
  decode (.arm 0xE5310004) = .ok (.ldrImm .al true false true 1 0 4) ∧
  decode (.arm 0xE8B0000E) = .ok (.ldm1 .al false true true 0 0x000E) ∧
  decode (.arm 0xEE3F0F11) = .ok (.mrc15 .al 1 15 0 0 1) ∧
  decode (.thumb 0x31FF) = .ok (.tAddImm8 1 0xFF) ∧
  decode (.thumb 0xB510) = .ok (.tPush true 0x10) ∧
  decode (.thumb 0xD1FC) = .ok (.tBCond .ne 0xFC) ∧
  decode (.thumb 0xF7FF) = .ok (.tBlPrefix 0x7FF)

/-- Decoding the encoding of an instruction whose operands fit its row gives the instruction back, for all 194 rows. -/
def Obligations.EveryInstructionSurvivesEncoding : Prop :=
  ∀ i : Instr, i.encodable = true → decode (encode i) = .ok i

/-- Each code has one reading: encoding what the decoder read from an ARM word or a Thumb halfword gives that code back,
and what it read fits its row. -/
def Obligations.EveryDecodedCodeIsItsEncoding : Prop :=
  ∀ (w : Code) (i : Instr), decode w = .ok i → encode i = w ∧ i.encodable = true

/-- A fetched code that no row of the opcode table holds: an ARM code whose condition fails only moves the pc past it (R21, R172);
any other is refused by name, and nothing else happens (R196, R207). BKPT has no condition: its code with a condition field other
than 1110 is refused whatever the flags (R330, R345). That the condition of the others is tested first is read from R21, R172 and
R566 by inference (the model's choice, log 22). -/
def Obligations.UnallocatedCodeIsRefused : Prop :=
  ∀ (s s1 : State) (f : Fetched) (e : DecodeError), s.Undisturbed → s.coreFetch = .ok f s1 → f.err = false →
    s1.breakHit f = false → s.staleRoute = false → decode (s1.code f.bits) = .error e →
    let field := f.bits.extractLsb' 28 4
    let bkpt := f.bits &&& 0x0FF000F0 = 0x01200070
    (s.cpsr.t = false → field = 0b1111#4 ∨ bkpt → step s = .refused (.unallocatedArm f.bits)) ∧
    (∀ c : Cond, s.cpsr.t = false → c.bits = field → s.cpsr.passes c = true →
      step s = .refused (.unallocatedArm f.bits)) ∧
    (∀ c : Cond, s.cpsr.t = false → c.bits = field → ¬ bkpt → s.cpsr.passes c = false →
      ∃ t, step s = .next t ∧ t = { s1 with pc := s.nextAddr, pastTop := t.pastTop, bankHazard := false }) ∧
    (s.cpsr.t = true → step s = .refused (.unallocatedThumb (f.bits.setWidth 16)))

/-! ### The step -/

/-- A STEP RUNS THE DECODED INSTRUCTION (R566 step 8): with nothing standing before it, the step is the meaning of the
instruction that the fetched code decodes to, at the state that the fetch leaves. -/
def Obligations.StepRunsTheDecodedInstruction : Prop :=
  ∀ (s s1 : State) (f : Fetched) (i : Instr), s.Undisturbed → s.coreFetch = .ok f s1 → f.err = false →
    s1.breakHit f = false → s.staleRoute = false → decode (s1.code f.bits) = .ok i → s1.bankedUse i = false →
    step s = exec i s1

/-- With nothing prefetched, the fetch brings the instruction that memory holds at the pc, from the ITCM or from the AHB
(R112, R104, R107), without an error mark, and changes only where fetched and buffered data stand: every register, every
byte of memory as loads see it and the rest of the machine are as before. -/
def Obligations.FetchReadsTheBytesAtThePc : Prop :=
  ∀ s : State, s.pipe = [] → s.ipb = [] → s.PcAligned → s.Clean →
    (if s.ctl.i = true ∧ s.pc.toNat < 0x400000 then
       s.tcmSize .itcm ≠ 0 ∧ s.params.tcmErrors = false ∧
         ∀ k ∈ span (lane s.ctl.b s.instrLen (s.tcmOffset .itcm s.pc.toNat)) s.instrLen, s.itcmUnwritten k = false
     else s.ahbError .fetch (s.pc.toNat / 4 * 4) 4 s.priv = false) →
    ∃ f s1, s.coreFetch = .ok f s1 ∧ s1.code f.bits = s.codeAtPc ∧ f.err = false ∧ MemoryStays s s1 ∧
      s1 = { s with nonseq := false, ahb := s1.ahb, ahbWB := s1.ahbWB, itcm := s1.itcm, itcmWB := s1.itcmWB,
                    ipb := s1.ipb, ipbNext := s1.ipbNext, free := s1.free }

/-- At an instruction boundary an FIQ that the F bit lets through is taken first, else an IRQ that the I bit lets through;
the saved pc is that of the next instruction plus 4 (R546, R547, R561, R566, R575). -/
def Obligations.InterruptsAreTakenByPriority : Prop :=
  ∀ s : State, s.forbidden = none → s.agenda = [] → s.unrecoverable = false → s.dbg.halted = false →
    s.debugRequest = false → s.pins.fifofull = false → s.pastTop = false → s.dbg.wptLatch = false →
    let s0 := { s with standby := false, etmRun := none, dbg := { s.dbg with bkptMatch := false } }
    (s.pins.fiq = true → s.cpsr.f = false → Enters (step s) s0 .fiq) ∧
    (s.pins.irq = true → s.cpsr.i = false → (s.pins.fiq = false ∨ s.cpsr.f = true) → Enters (step s) s0 .irq)

/-- An instruction whose fetch was answered with an error takes the Prefetch Abort when it would execute, also with a breakpoint on
it (R145, R544). With a breakpoint alone, of the debugger or of the DBGIEBKPT pin, it is not executed either: in halt mode the core
enters debug state before it, in monitor debug-mode it takes the Prefetch Abort with DbgAbt set (R601, R603, R606); there an
external mark is refused (R147). -/
def Obligations.MarkedInstructionIsNotExecuted : Prop :=
  ∀ (s s1 : State) (f : Fetched), s.Undisturbed → s.coreFetch = .ok f s1 → s.staleRoute = false →
    let s2 := { s1 with dbg := { s1.dbg with bkptMatch := false } }
    (f.err = true → Enters (step s) s2 .prefetchAbort) ∧
    (f.err = false → s.params.dbgen = true → s.params.fullDebug = true → f.bkpt = true ∨ s.dbg.bkptMatch = true →
      (s.dbg.monitor = false → ∃ v, step s = .next { s2 with
        standby := false, free := s1.free + 1, dbg := s2.dbg.afterEntry s.cpsr.t v }) ∧
      (s.dbg.monitor = true → f.bkpt = false →
        Enters (step s) { s2 with dcc := { s.dcc with dbgAbt := true } } .prefetchAbort) ∧
      (s.dbg.monitor = true → f.bkpt = true → step s = .refused (.unpredictable .externalInMonitor)))

/-- An ARM instruction whose condition fails only moves the pc past it; the conditions are tests of the flags by the table of
R172 (R21). -/
def Obligations.FailedConditionOnlyAdvances : Prop :=
  (∀ (i : Instr) (s : State), s.cpsr.passes (accessed s.cpsr.m i).1 = false →
    ∃ t, exec i s = .next t ∧ t = { s with pc := s.nextAddr, pastTop := t.pastTop, bankHazard := false }) ∧
  (∀ p : Psr, ([Cond.eq, .ne, .cs, .cc, .mi, .pl, .vs, .vc, .hi, .ls, .ge, .lt, .gt, .le, .al].map p.passes) =
    [p.z, !p.z, p.c, !p.c, p.n, !p.n, p.v, !p.v, p.c && !p.z, !p.c || p.z, p.n == p.v, p.n != p.v,
     !p.z && p.n == p.v, p.z || p.n != p.v, true])

/-- An instruction whose operands are an UNPREDICTABLE combination is refused under the name of the combination, in a
privileged mode and with its condition passed (R20, R180, R220). -/
def Obligations.UnpredictableOperandsAreRefused : Prop :=
  ∀ (i : Instr) (s : State) (u : Unpred), i.check = some u → s.priv = true →
    s.cpsr.passes (accessed s.cpsr.m i).1 = true → exec i s = .refused (.unpredictable u)

/-- With the mark that LDM(2) and STM(2) leave, an instruction that uses a banked register of the current mode is refused, and
one that uses none is run: a BKPT that takes the Prefetch Abort in Abort mode writes r14_abt, one that a debugger in halt mode takes
uses no register (R656, R345). R656 and R345 do not say whether the r14 that an exception of the instruction itself writes is a
register it uses: that the r14 of BKPT, SWI and the Undefined ones counts, and that an instruction whose access takes a Data Abort in
Abort mode is run as one that does not use r14_abt, are the model's choices (log 18), and so is that a
debugger takes BKPT in the reduced debug configuration too (log 27). -/
def Obligations.BankedRegisterHazardIsRefused : Prop :=
  ∀ (s s1 : State) (f : Fetched) (i : Instr), s.Undisturbed → s.bankHazard = true → s.coreFetch = .ok f s1 →
    f.err = false → s1.breakHit f = false → s.staleRoute = false → decode (s1.code f.bits) = .ok i →
    s.cpsr.passes (accessed s.cpsr.m i).1 = true →
    let halts := (∃ b12 b4, i = .bkpt b12 b4) ∧ s.params.dbgen = true ∧ s.dbg.monitor = false ∧ s.dbg.takesBkpt = true
    ((accessed s.cpsr.m i).2.any (isBanked s.cpsr.m) = true → ¬ halts →
      step s = .refused (.unpredictable .bankedAfterUserList)) ∧
    ((accessed s.cpsr.m i).2.any (isBanked s.cpsr.m) = false ∨ halts → step s = exec i s1)

/-! ### Data processing -/

/-- The shifter operands bit by bit (R176, R177, R178): where each result bit comes from, the carry out, the amounts 0, 32
and above 32, and RRX. -/
def Obligations.ShifterOperandsBitByBit : Prop :=
  (∀ (m : Word) (c : Bool) (n : Nat) (sh : Shift), shiftByReg sh 0 m c = ⟨m, c⟩ ∧ (0 < n →
    (shiftByReg .lsl n m c).carry = (decide (n ≤ 32) && m.getLsbD (32 - n)) ∧
    (shiftByReg .lsr n m c).carry = m.getLsbD (n - 1) ∧
    (shiftByReg .asr n m c).carry = m.getLsbD (min n 32 - 1) ∧
    (shiftByReg .ror n m c).carry = m.getLsbD ((n - 1) % 32) ∧
    ∀ j < 32,
      (shiftByReg .lsl n m c).value.getLsbD j = (decide (n ≤ j) && m.getLsbD (j - n)) ∧
      (shiftByReg .lsr n m c).value.getLsbD j = m.getLsbD (j + n) ∧
      (shiftByReg .asr n m c).value.getLsbD j = m.getLsbD (min (j + n) 31) ∧
      (shiftByReg .ror n m c).value.getLsbD j = m.getLsbD ((j + n) % 32))) ∧
  (∀ (m : Word) (c : Bool) (sa : BitVec 5) (sh : Shift), sa ≠ 0 → shiftByImm sh sa m c = shiftByReg sh sa.toNat m c) ∧
  (∀ (m : Word) (c : Bool), shiftByImm .lsl 0 m c = ⟨m, c⟩ ∧ shiftByImm .lsr 0 m c = shiftByReg .lsr 32 m c ∧
    shiftByImm .asr 0 m c = shiftByReg .asr 32 m c ∧ (shiftByImm .ror 0 m c).carry = m.getLsbD 0 ∧
    ∀ j < 32, (shiftByImm .ror 0 m c).value.getLsbD j = if j = 31 then c else m.getLsbD (j + 1)) ∧
  (∀ (rot : BitVec 4) (imm : BitVec 8) (c : Bool),
    (∀ j < 32, (immOperand rot imm c).value.getLsbD j = imm.getLsbD ((j + 2 * rot.toNat) % 32)) ∧
    (immOperand rot imm c).carry = if rot = 0 then c else (immOperand rot imm c).value.getLsbD 31)

/-- AND, EOR, ORR, BIC, MOV and MVN in their three forms: the result, with S the flags N, Z and C (V unchanged), and the
frame (R278, R279, R290 to R293, R276). -/
def Obligations.LogicalOperationsGiveResultAndFlags : Prop :=
  ∀ (op : DpOp) (c : Cond) (sf : Bool) (rn rd : Reg) (o : Operand2) (s : State),
    op ∈ [DpOp.and, .eor, .orr, .bic, .mov, .mvn] → s.cpsr.passes c = true → rd ≠ 15 → o.Allows [rn, rd] →
    let x := o.eval s
    let r := op.result (s.reg rn) x.value s.cpsr.c
    Computes (op.instr c sf rn rd o) s (flagsLogical sf s.cpsr r x.carry) [(s.phys rd, r)]

/-- ADD, ADC, SUB, SBC, RSB and RSC in their three forms: the result, with S the flags by unsigned carry or borrow and by
the sign rule of overflow, and the frame (R280 to R285, R276, R22). -/
def Obligations.ArithmeticGivesResultAndFlags : Prop :=
  ∀ (op : DpOp) (c : Cond) (sf : Bool) (rn rd : Reg) (o : Operand2) (s : State),
    op ∈ [DpOp.add, .adc, .sub, .sbc, .rsb, .rsc] → s.cpsr.passes c = true → rd ≠ 15 → o.Allows [rn, rd] →
    let x := o.eval s
    Computes (op.instr c sf rn rd o) s (op.status sf (s.reg rn) x s.cpsr)
      [(s.phys rd, op.result (s.reg rn) x.value s.cpsr.c)]

/-- TST, TEQ, CMP and CMN in their three forms write the flags and nothing else (R286 to R289, R276). -/
def Obligations.ComparesWriteOnlyFlags : Prop :=
  ∀ (op : DpOp) (c : Cond) (sf : Bool) (rn rd : Reg) (o : Operand2) (s : State),
    op ∈ [DpOp.tst, .teq, .cmp, .cmn] → s.cpsr.passes c = true → o.Allows [rn] →
    Computes (op.instr c sf rn rd o) s (op.status true (s.reg rn) (o.eval s) s.cpsr) []

/-- The twelve operations with destination r15 and S = 0 branch to a word-aligned result without changing the CPSR; another
result is refused (R277, R331). -/
def Obligations.DataProcessingToPcBranches : Prop :=
  ∀ (op : DpOp) (c : Cond) (rn : Reg) (o : Operand2) (s : State),
    op ∉ [DpOp.tst, .teq, .cmp, .cmn] → s.cpsr.passes c = true → (op.instr c false rn 15 o).check = none →
    let v := op.result (s.reg rn) (o.eval s).value s.cpsr.c
    (v.toNat % 4 = 0 → Gives (exec (op.instr c false rn 15 o) s) s v s.cpsr [] []) ∧
    (v.toNat % 4 ≠ 0 → exec (op.instr c false rn 15 o) s = .refused (.unpredictable .target))

/-- The twelve operations with destination r15 and S = 1 return from an exception: the CPSR becomes the SPSR of the mode and
the pc is the result in the state that its T bit selects; in User and System mode they are refused (R277, R580, R48). -/
def Obligations.DataProcessingToPcReturns : Prop :=
  ∀ (op : DpOp) (c : Cond) (rn : Reg) (o : Operand2) (s : State),
    op ∉ [DpOp.tst, .teq, .cmp, .cmn] → s.cpsr.passes c = true → (op.instr c true rn 15 o).check = none →
    let v := op.result (s.reg rn) (o.eval s).value s.cpsr.c
    (excMode s.cpsr.m = none → exec (op.instr c true rn 15 o) s = .refused (.unpredictable .noSpsr)) ∧
    ∀ e : ExcMode, excMode s.cpsr.m = some e → legalMode (s.spsr e).m = true →
      ((s.spsr e).t = true → Gives (exec (op.instr c true rn 15 o) s) s (v &&& 0xFFFFFFFE) (s.spsr e) [] []) ∧
      ((s.spsr e).t = false → v.toNat % 4 = 0 → Gives (exec (op.instr c true rn 15 o) s) s v (s.spsr e) [] []) ∧
      ((s.spsr e).t = false → v.toNat % 4 ≠ 0 →
        exec (op.instr c true rn 15 o) s = .refused (.unpredictable .target))

/-- CLZ counts the zeros above the highest one bit, 32 for zero (R294). -/
def Obligations.ClzCountsLeadingZeros : Prop :=
  ∀ (c : Cond) (rd rm : Reg) (s : State), s.cpsr.passes c = true → rd ≠ 15 → rm ≠ 15 →
    ∃ k ≤ 32, Computes (.clz c 15 rd 15 rm) s s.cpsr [(s.phys rd, BitVec.ofNat 32 k)] ∧
      (∀ j, 32 - k ≤ j → j < 32 → (s.reg rm).getLsbD j = false) ∧ (k < 32 → (s.reg rm).getLsbD (31 - k) = true)

/-! ### Multiplies -/

/-- MUL and MLA: the low 32 bits, and with S the flags N and Z only (R301, R302). -/
def Obligations.MultiplyGivesLowWord : Prop :=
  ∀ (c : Cond) (sf : Bool) (rd rn rs rm : Reg) (s : State), s.cpsr.passes c = true →
    let gives := fun (i : Instr) (r : Word) => i.check = none →
      Computes i s (flagsLogical sf s.cpsr r s.cpsr.c) [(s.phys rd, r)]
    gives (.mul c sf rd 0 rs rm) (s.reg rm * s.reg rs) ∧
    gives (.mla c sf rd rn rs rm) (s.reg rm * s.reg rs + s.reg rn)

/-- UMULL, UMLAL, SMULL and SMLAL: the two halves of the 64-bit result, and with S the flags N and Z of the 64 bits (R303 to
R306). -/
def Obligations.LongMultiplyGivesBothWords : Prop :=
  ∀ (c : Cond) (sf : Bool) (rdHi rdLo rs rm : Reg) (s : State), s.cpsr.passes c = true →
    let gives := fun (i : Instr) (r : BitVec 64) => i.check = none →
      Computes i s (if sf then { s.cpsr with n := r.getLsbD 63, z := decide (r = 0) } else s.cpsr)
        [(s.phys rdHi, (r >>> 32).setWidth 32), (s.phys rdLo, r.setWidth 32)]
    let u := (s.reg rm).setWidth 64 * (s.reg rs).setWidth 64
    let d := (s.reg rm).signExtend 64 * (s.reg rs).signExtend 64
    let acc : BitVec 64 := (s.reg rdHi).setWidth 64 <<< 32 ||| (s.reg rdLo).setWidth 64
    gives (.umull c sf rdHi rdLo rs rm) u ∧ gives (.umlal c sf rdHi rdLo rs rm) (acc + u) ∧
    gives (.smull c sf rdHi rdLo rs rm) d ∧ gives (.smlal c sf rdHi rdLo rs rm) (acc + d)

/-- SMUL<x><y>, SMULW<y>, SMLA<x><y>, SMLAW<y> and SMLAL<x><y>: the products of signed halves, the accumulations, and Q set
when an accumulation of 32 bits overflows (R307 to R312, R317). -/
def Obligations.HalfwordMultipliesAccumulate : Prop :=
  ∀ (c : Cond) (x y : Bool) (rd rn rs rm : Reg) (s : State), s.cpsr.passes c = true →
    let p := halfWord (s.reg rm) x * halfWord (s.reg rs) y
    let w := (((s.reg rm).signExtend 64 * (halfWord (s.reg rs) y).signExtend 64).sshiftRight 16).setWidth 32
    let q := fun v : Word => { s.cpsr with q := s.cpsr.q || sumOverflows v (s.reg rn) }
    let l : BitVec 64 := ((s.reg rd).setWidth 64 <<< 32 ||| (s.reg rn).setWidth 64) + p.signExtend 64
    ((Instr.smulXY c rd 0 rs y x rm).check = none → Computes (.smulXY c rd 0 rs y x rm) s s.cpsr [(s.phys rd, p)]) ∧
    ((Instr.smulwY c rd 0 rs y rm).check = none → Computes (.smulwY c rd 0 rs y rm) s s.cpsr [(s.phys rd, w)]) ∧
    ((Instr.smlaXY c rd rn rs y x rm).check = none →
      Computes (.smlaXY c rd rn rs y x rm) s (q p) [(s.phys rd, p + s.reg rn)]) ∧
    ((Instr.smlawY c rd rn rs y rm).check = none →
      Computes (.smlawY c rd rn rs y rm) s (q w) [(s.phys rd, w + s.reg rn)]) ∧
    ((Instr.smlalXY c rd rn rs y x rm).check = none →
      Computes (.smlalXY c rd rn rs y x rm) s s.cpsr
        [(s.phys rd, (l >>> 32).setWidth 32), (s.phys rn, l.setWidth 32)])

/-- QADD, QSUB, QDADD and QDSUB: each step is clamped to 32 bits, and Q is set when a step was clamped, never cleared (R313 to
R317). -/
def Obligations.SaturatingArithmeticClamps : Prop :=
  ∀ (c : Cond) (rn rd rm : Reg) (s : State), s.cpsr.passes c = true → rn ≠ 15 → rd ≠ 15 → rm ≠ 15 →
    let m := (s.reg rm).toInt
    let n := (s.reg rn).toInt
    let gives := fun (i : Instr) (v : Int) (also : Bool) =>
      Computes i s { s.cpsr with q := s.cpsr.q || also || decide (clamp v ≠ v) } [(s.phys rd, BitVec.ofInt 32 (clamp v))]
    gives (.qadd c rn rd 0 rm) (m + n) false ∧ gives (.qsub c rn rd 0 rm) (m - n) false ∧
    gives (.qdadd c rn rd 0 rm) (m + clamp (2 * n)) (decide (clamp (2 * n) ≠ 2 * n)) ∧
    gives (.qdsub c rn rd 0 rm) (m - clamp (2 * n)) (decide (clamp (2 * n) ≠ 2 * n))

/-! ### Branches, status registers, exceptions -/

/-- B, BL and BLX(1): the target is two instructions ahead plus four times the signed offset, BL and BLX(1) save the address
of the next instruction in r14, BLX(1) enters Thumb state and adds the H bit (R186, R332, R334). -/
def Obligations.BranchesReachTheirTarget : Prop :=
  ∀ (c : Cond) (h : Bool) (off : BitVec 24) (s : State),
    let target := s.pc + 8 + BitVec.ofInt 32 (4 * off.toInt)
    (s.cpsr.passes c = true → Gives (exec (.b c off) s) s target s.cpsr [] []) ∧
    (s.cpsr.passes c = true → Gives (exec (.bl c off) s) s target s.cpsr [(s.phys 14, s.pc + 4)] []) ∧
    Gives (exec (.blxImm h off) s) s (target + if h then 2 else 0) { s.cpsr with t := true } [(s.phys 14, s.pc + 4)] []

/-- BX and BLX(2), ARM and Thumb: bit 0 of the register selects the state, the pc is the rest, an address that is not
aligned for ARM state is refused; BLX(2) saves the return address in r14, with bit 0 set in Thumb state (R335, R336, R525,
R526, R331). -/
def Obligations.ExchangesSelectTheState : Prop :=
  ∀ (c : Cond) (rm : Reg) (h : Bool) (lm : LReg) (s : State),
    let exchanges := fun (i : Instr) (v : Word) (dst : List (PhysReg × Word)) =>
      (v.getLsbD 0 = true → Gives (exec i s) s (v &&& 0xFFFFFFFE) { s.cpsr with t := true } dst []) ∧
      (v.toNat % 4 = 0 → Gives (exec i s) s v { s.cpsr with t := false } dst []) ∧
      (v.toNat % 4 = 2 → exec i s = .refused (.unpredictable .target))
    (s.cpsr.passes c = true → exchanges (.bx c 0xFFF rm) (s.reg rm) []) ∧
    (s.cpsr.passes c = true → rm ≠ 15 → exchanges (.blxReg c 0xFFF rm) (s.reg rm) [(s.phys 14, s.pc + 4)]) ∧
    exchanges (.tBx h lm 0) (s.reg (hiReg h lm)) [] ∧
    (hiReg h lm ≠ 15 → exchanges (.tBlxReg h lm 0) (s.reg (hiReg h lm)) [(s.phys 14, (s.pc + 2) ||| 1)])

/-- MRS reads the CPSR, or in an exception mode the SPSR of that mode, bit by bit: the reserved bits read as 0 (R47); in User and
System mode, which have no SPSR, reading it is refused (R338, R40, R47, R48). -/
def Obligations.MrsReadsStatus : Prop :=
  (∀ (c : Cond) (rd : Reg) (s : State), s.cpsr.passes c = true → rd ≠ 15 →
    Computes (.mrs c false 15 rd 0 0) s s.cpsr [(s.phys rd, s.cpsr.toWord)] ∧
    (∀ e, excMode s.cpsr.m = some e → Computes (.mrs c true 15 rd 0 0) s s.cpsr [(s.phys rd, (s.spsr e).toWord)]) ∧
    (excMode s.cpsr.m = none → exec (.mrs c true 15 rd 0 0) s = .refused (.unpredictable .noSpsr))) ∧
  (∀ (p : Psr) (j : Nat), j < 32 → p.toWord.getLsbD j =
    if j = 31 then p.n else if j = 30 then p.z else if j = 29 then p.c else if j = 28 then p.v else if j = 27 then p.q
    else if j = 7 then p.i else if j = 6 then p.f else if j = 5 then p.t else if j < 5 then p.m.getLsbD j else false)

/-- MSR, both operand forms (R341, R43, R46, R49): in a privileged mode it writes the flags, I, F and the mode of the CPSR
under the field mask, an operand with the T bit set is refused, and an illegal mode makes the core unrecoverable, after
which its turns do nothing; in User mode it writes only the flags; on the SPSR it writes the flags and the control byte;
User and System mode, which have no SPSR, are refused. That an operand whose reserved bits are not 0 is not refused, and that
those bits are ignored, is the model's choice between R47 and the mask in the pseudocode of R341 (log 19). -/
def Obligations.MsrWritesTheMaskedFields : Prop :=
  ∀ (c : Cond) (r : Bool) (fm : BitVec 4) (rm : Reg) (rot : BitVec 4) (imm : BitVec 8) (s : State) (i : Instr) (v : Word),
    s.cpsr.passes c = true →
    (i = .msrReg c r fm 15 0 rm ∧ rm ≠ 15 ∧ v = s.reg rm ∨
      i = .msrImm c r fm 15 rot imm ∧ v = (imm.setWidth 32).rotateRight (2 * rot.toNat)) →
    let mask := (if fm.getLsbD 0 then 0xFF else 0) + (if fm.getLsbD 3 then 0xF8000000#32 else 0)
    let put := fun (p : Psr) (m : Word) => Psr.ofWord ((p.toWord &&& ~~~m) ||| (v &&& m))
    (r = false → s.cpsr.m = modeUser → Computes i s (put s.cpsr (mask &&& 0xFFFFFF00)) []) ∧
    (r = false → s.cpsr.m ≠ modeUser → v.getLsbD 5 = true → exec i s = .refused (.unpredictable .msrSetsT)) ∧
    (r = false → s.cpsr.m ≠ modeUser → v.getLsbD 5 = false → legalMode (put s.cpsr (mask &&& 0xFFFFFFDF)).m = true →
      Computes i s (put s.cpsr (mask &&& 0xFFFFFFDF)) []) ∧
    (r = false → s.cpsr.m ≠ modeUser → v.getLsbD 5 = false → legalMode (put s.cpsr (mask &&& 0xFFFFFFDF)).m = false →
      ∃ t, exec i s = .next t ∧ t.cpsr = put s.cpsr (mask &&& 0xFFFFFFDF) ∧ t.unrecoverable = true ∧
        (t.forbidden = none → t.agenda = [] → step t = .next t)) ∧
    (r = true → excMode s.cpsr.m = none → exec i s = .refused (.unpredictable .noSpsr)) ∧
    (∀ e : ExcMode, r = true → excMode s.cpsr.m = some e → ∃ t, exec i s = .next t ∧ t.spsr e = put (s.spsr e) mask ∧
      (∀ e', e' ≠ e → t.spsr e' = s.spsr e') ∧ MemoryStays s t ∧
      t = { s with spsrs := t.spsrs, pc := s.nextAddr, pastTop := t.pastTop, bankHazard := false })

/-- SWI, BKPT that no debugger takes, the undefined encodings, and every instruction for a coprocessor that this processor
does not have, take their exception; BKPT with a debugger in halt mode that takes it enters debug state (R344, R345, R195,
R400 to R410, R528 to R530). That BKPT in monitor debug-mode takes the Prefetch Abort and leaves DbgAbt as it was is the model's
choice (log 27): R345 does not speak of DbgAbt there. So is that BKPT enters debug state in the reduced debug configuration too, where
R601 lets no breakpoint fire (log 27). That a BKPT which enters debug state ends the Standby of a wait-for-interrupt that
the debugger has scanned in before it is the model's choice too (log 31). -/
def Obligations.TrapsTakeTheirException : Prop :=
  ∀ (c : Cond) (p u n w : Bool) (rn rd : Reg) (cp k1 k2 k3 : BitVec 4) (o1 o2 : BitVec 3) (off : BitVec 8) (b1 : BitVec 1)
    (b12 : BitVec 12) (b20 : BitVec 20) (b24 : BitVec 24) (s : State),
    (s.cpsr.passes c = true →
      Enters (exec (.swi c b24) s) s .swi ∧ Enters (exec (.undefMedia c b20 k1) s) s .undef ∧
      Enters (exec (.undefMisc c b1 b20) s) s .undef ∧
      Enters (exec (.cdp c k1 k2 k3 cp o1 rn) s) s .undef ∧ Enters (exec (.ldc c p u n w rn k1 cp off) s) s .undef ∧
      Enters (exec (.stc c p u n w rn k1 cp off) s) s .undef ∧ Enters (exec (.mcr c o1 k1 rd cp o2 k2) s) s .undef ∧
      Enters (exec (.mrc c o1 k1 rd cp o2 k2) s) s .undef ∧ Enters (exec (.mcrr c rn rd cp k1 k2) s) s .undef ∧
      Enters (exec (.mrrc c rn rd cp k1 k2) s) s .undef) ∧
    (cp ≠ 14 → cp ≠ 15 →
      Enters (exec (.cdp2 k1 k2 k3 cp o1 rn) s) s .undef ∧ Enters (exec (.ldc2 p u n w rn k1 cp off) s) s .undef ∧
      Enters (exec (.stc2 p u n w rn k1 cp off) s) s .undef ∧ Enters (exec (.mcr2 o1 k1 rd cp o2 k2) s) s .undef ∧
      Enters (exec (.mrc2 o1 k1 rd cp o2 k2) s) s .undef) ∧
    Enters (exec (.tSwi off) s) s .swi ∧ Enters (exec (.tUndef off) s) s .undef ∧
    (s.params.dbgen = false ∨ s.dbg.monitor = true ∨ s.dbg.takesBkpt = false →
      Enters (exec (.bkpt b12 k1) s) s .prefetchAbort ∧ Enters (exec (.tBkpt off) s) s .prefetchAbort) ∧
    (s.params.dbgen = true → s.dbg.monitor = false → s.dbg.takesBkpt = true →
      ∀ i ∈ [Instr.bkpt b12 k1, .tBkpt off], ∃ v, exec i s = .next { s with
        standby := false, free := s.free + 1, dbg := s.dbg.afterEntry s.cpsr.t v })

/-- Taking an exception: the saved pc and CPSR, the mode, T, I, F, the vector, by the table of R571; no write buffer is drained
and the prefetch buffer is not flushed; of the words the pipeline has fetched those that no drain has passed since can still be
executed (R570, R571, R572, R575, and R70 with R162; that an exception is such a control transfer is the model's choice: log 16). -/
def Obligations.ExceptionEntryByTheTable : Prop :=
  ∀ (s : State), (∀ e : Exc, Enters (.next (s.takeException e)) s e ∧
      (s.takeException e).pipe = ((s.pipe.filter fun w => !w.drained).map fun w => { w with old := true }) ∧
      (s.takeException e).ahbWB = s.ahbWB ∧ (s.takeException e).itcmWB = s.itcmWB ∧
      (s.takeException e).dtcmWB = s.dtcmWB ∧ (s.takeException e).ipb = s.ipb) ∧
    (s.vectorBase = if s.ctl.v then 0xFFFF0000 else 0) ∧
    ([Exc.undef, .swi, .prefetchAbort, .dataAbort, .irq, .fiq].map fun e => (e.mode.bits, e.offset, e.linkOffset false)) =
      [(0b11011#5, 0x04#32, 4#32), (0b10011, 0x08, 4), (0b10111, 0x0C, 4), (0b10111, 0x10, 8), (0b10010, 0x18, 4),
       (0b10001, 0x1C, 4)] ∧
    ([Exc.undef, .swi, .prefetchAbort, .dataAbort, .irq, .fiq].map fun e => e.linkOffset true) = [2, 2, 4, 8, 4, 4] ∧
    ([ExcMode.und, .svc, .abt, .irq, .fiq].map fun e => e.linkReg) =
      [.r14_und, .r14_svc, .r14_abt, .r14_irq, .r14_fiq]

/-! ### Loads and stores -/

/-- The single loads of addressing modes 2 and 3 into a register: the word (rotated by a misaligned address), byte or
halfword, zero- or sign-extended, the base as written back, and the frame; a halfword at an odd address with A = 0 is refused
(R350, R352, R353, R357, R366, R368, R369, R118). -/
def Obligations.SingleLoadsBringMemory : Prop :=
  ∀ (c : Cond) (p u w : Bool) (rn rd rm : Reg) (off : BitVec 12) (sa : BitVec 5) (sh : Shift) (iH iL : BitVec 4)
    (s : State), s.cpsr.passes c = true → rd ≠ 15 →
    let loads := fun (i : Instr) (x : Address) (size : Nat) (v : Word) =>
      i.check = none → s.LoadReady size s.priv x.addr → Loads i s rn rd x v
    let a := s.mode2Imm p u w rn off
    let b := s.mode2Reg p u w rn sa sh rm
    let d := s.mode3Imm p u w rn iH iL
    let e := s.mode3Reg p u w rn rm
    let refuses := fun (i : Instr) (x : Address) => i.check = none → s.ctl.a = false → x.addr.toNat % 2 = 1 →
      exec i s = .refused (.unpredictable .misalignedHalf)
    refuses (.ldrhImm c p u w rn rd iH iL) d ∧ refuses (.ldrhReg c p u w rn rd 0 rm) e ∧
    refuses (.ldrshImm c p u w rn rd iH iL) d ∧ refuses (.ldrshReg c p u w rn rd 0 rm) e ∧
    loads (.ldrImm c p u w rn rd off) a 4 (s.loadWord a.addr) ∧
    loads (.ldrReg c p u w rn rd sa sh rm) b 4 (s.loadWord b.addr) ∧
    loads (.ldrbImm c p u w rn rd off) a 1 (s.loadByte false a.addr) ∧
    loads (.ldrbReg c p u w rn rd sa sh rm) b 1 (s.loadByte false b.addr) ∧
    loads (.ldrhImm c p u w rn rd iH iL) d 2 (s.loadHalf false d.addr) ∧
    loads (.ldrhReg c p u w rn rd 0 rm) e 2 (s.loadHalf false e.addr) ∧
    loads (.ldrsbImm c p u w rn rd iH iL) d 1 (s.loadByte true d.addr) ∧
    loads (.ldrsbReg c p u w rn rd 0 rm) e 1 (s.loadByte true e.addr) ∧
    loads (.ldrshImm c p u w rn rd iH iL) d 2 (s.loadHalf true d.addr) ∧
    loads (.ldrshReg c p u w rn rd 0 rm) e 2 (s.loadHalf true e.addr)

/-- The single stores of addressing modes 2 and 3: the bytes at the address computed, the base as written back, and the
frame, every other byte of memory included; STR of r15 stores the pc plus 8 or 12 by the parameter; a halfword at an odd address
with A = 0 is refused (R350, R355, R356, R358, R367, R118). -/
def Obligations.SingleStoresWriteTheirBytes : Prop :=
  ∀ (c : Cond) (p u w : Bool) (rn rd rm : Reg) (off : BitVec 12) (sa : BitVec 5) (sh : Shift) (iH iL : BitVec 4)
    (s : State), s.cpsr.passes c = true →
    let stores := fun (i : Instr) (x : Address) (size : Nat) (v : Word) =>
      i.check = none → s.StoreReady size s.priv x.addr → Stores i s rn x size v
    let v := if rd = 15 then s.pc + (if s.params.storedPc12 then 12 else 8) else s.getPhys (s.phys rd)
    let a := s.mode2Imm p u w rn off
    let b := s.mode2Reg p u w rn sa sh rm
    let d := s.mode3Imm p u w rn iH iL
    let e := s.mode3Reg p u w rn rm
    let refuses := fun (i : Instr) (x : Address) => i.check = none → s.ctl.a = false → x.addr.toNat % 2 = 1 →
      exec i s = .refused (.unpredictable .misalignedHalf)
    refuses (.strhImm c p u w rn rd iH iL) d ∧ refuses (.strhReg c p u w rn rd 0 rm) e ∧
    stores (.strImm c p u w rn rd off) a 4 v ∧ stores (.strReg c p u w rn rd sa sh rm) b 4 v ∧
    stores (.strbImm c p u w rn rd off) a 1 v ∧ stores (.strbReg c p u w rn rd sa sh rm) b 1 v ∧
    stores (.strhImm c p u w rn rd iH iL) d 2 v ∧ stores (.strhReg c p u w rn rd 0 rm) e 2 v

/-- LDRT, LDRBT, STRT and STRBT transfer at the base with a User access and write back the post-indexed base. In a privileged mode,
where the AHB refuses the User access at an address and answers the privileged one, they take the Data Abort, and LDR, LDRB, STR and
STRB with the same base complete. That the written-back base keeps its old value in the abort is the model's choice (R351 by D15,
log 8) (R360 to R364, R142, R592). -/
def Obligations.UserTransfersAccessAsUser : Prop :=
  ∀ (c : Cond) (u : Bool) (rn rd rm : Reg) (off : BitVec 12) (sa : BitVec 5) (sh : Shift) (s : State),
    s.cpsr.passes c = true →
    let a := s.mode2Imm false u true rn off
    let b := s.mode2Reg false u true rn sa sh rm
    let a' := s.mode2Imm false u false rn off
    let b' := s.mode2Reg false u false rn sa sh rm
    let loads := fun (i j : Instr) (x y : Address) (size : Nat) (v : Word) => i.check = none →
      (s.LoadReady size false x.addr → Loads i s rn rd x v) ∧
      (s.Quiet → s.priv = true → x.addr.toNat % size = 0 → s.BusError .read size false x.addr →
        Aborts (exec i s) s [] [] ∧
        (rd ≠ 15 → j.check = none → s.Answers .read size true x.addr → y.addr = x.addr ∧ Loads j s rn rd y v))
    let stores := fun (i j : Instr) (x y : Address) (size : Nat) (v : Word) => i.check = none →
      (s.StoreReady size false x.addr → Stores i s rn x size v) ∧
      (s.Quiet → s.priv = true → x.addr.toNat % size = 0 → s.BusError .write size false x.addr →
        Aborts (exec i s) s [] [(x.addr, size)] ∧
        (rd ≠ 15 → j.check = none → s.Answers .write size true x.addr → y.addr = x.addr ∧ Stores j s rn y size v))
    a.addr = s.reg rn ∧ b.addr = s.reg rn ∧
    a.wb = some (if u then s.reg rn + off.setWidth 32 else s.reg rn - off.setWidth 32) ∧
    loads (.ldrtImm c u rn rd off) (.ldrImm c false u false rn rd off) a a' 4 (s.loadWord a.addr) ∧
    loads (.ldrtReg c u rn rd sa sh rm) (.ldrReg c false u false rn rd sa sh rm) b b' 4 (s.loadWord b.addr) ∧
    loads (.ldrbtImm c u rn rd off) (.ldrbImm c false u false rn rd off) a a' 1 (s.loadByte false a.addr) ∧
    loads (.ldrbtReg c u rn rd sa sh rm) (.ldrbReg c false u false rn rd sa sh rm) b b' 1 (s.loadByte false b.addr) ∧
    stores (.strtImm c u rn rd off) (.strImm c false u false rn rd off) a a' 4 (s.reg rd) ∧
    stores (.strtReg c u rn rd sa sh rm) (.strReg c false u false rn rd sa sh rm) b b' 4 (s.reg rd) ∧
    stores (.strbtImm c u rn rd off) (.strbImm c false u false rn rd off) a a' 1 (s.reg rd) ∧
    stores (.strbtReg c u rn rd sa sh rm) (.strbReg c false u false rn rd sa sh rm) b b' 1 (s.reg rd)

/-- LDR with destination r15: with LT = 1 the pc is the word without its low two bits and the state stays, with LT = 0 bit 0
of the word selects the state; a word that is not aligned for ARM state is refused, and so is a load from an address whose low two
bits are not 00 with A = 0 (R354, R331, R39, R118). -/
def Obligations.LoadsOfThePcBranch : Prop :=
  ∀ (c : Cond) (p u w : Bool) (rn rm : Reg) (off : BitVec 12) (sa : BitVec 5) (sh : Shift) (s : State) (i : Instr)
    (x : Address), s.cpsr.passes c = true → s.cpsr.t = false → i.check = none →
    (i = .ldrImm c p u w rn 15 off ∧ x = s.mode2Imm p u w rn off ∨
      i = .ldrReg c p u w rn 15 sa sh rm ∧ x = s.mode2Reg p u w rn sa sh rm) →
    let v := s.valueAt 4 x.addr
    (x.addr.toNat % 4 = 0 → s.LoadReady 4 s.priv x.addr →
      (s.ctl.lt = true → Gives (exec i s) s (v &&& 0xFFFFFFFC) s.cpsr (s.back rn x) []) ∧
      (s.ctl.lt = false → v.getLsbD 0 = true →
        Gives (exec i s) s (v &&& 0xFFFFFFFE) { s.cpsr with t := true } (s.back rn x) []) ∧
      (s.ctl.lt = false → v.toNat % 4 = 0 → Gives (exec i s) s v s.cpsr (s.back rn x) []) ∧
      (s.ctl.lt = false → v.toNat % 4 = 2 → exec i s = .refused (.unpredictable .target))) ∧
    (x.addr.toNat % 4 ≠ 0 → s.ctl.a = false → exec i s = .refused (.unpredictable .misalignedPcLoad))

/-- LDRD and STRD at a doubleword address: two words at ascending addresses from and to an even register and the next, and
the base as written back; a misaligned address with A = 0 is refused (R370, R371, R118). -/
def Obligations.DoublewordTransfersTwoWords : Prop :=
  ∀ (c : Cond) (p u w : Bool) (rn rd rm : Reg) (iH iL : BitVec 4) (s : State) (x : Address) (i j : Instr),
    s.cpsr.passes c = true →
    (i = .ldrdImm c p u w rn rd iH iL ∧ j = .strdImm c p u w rn rd iH iL ∧ x = s.mode3Imm p u w rn iH iL ∨
      i = .ldrdReg c p u w rn rd 0 rm ∧ j = .strdReg c p u w rn rd 0 rm ∧ x = s.mode3Reg p u w rn rm) →
    (i.check = none → x.addr.toNat % 8 = 0 → s.Clean → s.AnswersAll .read 2 x.addr →
      Gives (exec i s) s s.nextAddr s.cpsr
        (s.back rn x ++ [(s.phys rd, s.valueAt 4 x.addr), (s.phys (rd + 1), s.valueAt 4 (x.addr + 4))]) []) ∧
    (j.check = none → x.addr.toNat % 8 = 0 → s.Clean → s.AnswersAll .write 2 x.addr →
      Gives (exec j s) s s.nextAddr s.cpsr (s.back rn x)
        [⟨x.addr, 4, s.reg rd⟩, ⟨x.addr + 4, 4, s.reg (rd + 1)⟩]) ∧
    (i.check = none → x.addr.toNat % 8 ≠ 0 → s.ctl.a = false →
      exec i s = .refused (.unpredictable .misalignedDouble)) ∧
    (j.check = none → x.addr.toNat % 8 ≠ 0 → s.ctl.a = false →
      exec j s = .refused (.unpredictable .misalignedDouble))

/-- PLD changes nothing but the pc; with r15 as its offset register it is refused (R378). -/
def Obligations.PreloadOnlyAdvances : Prop :=
  ∀ (u : Bool) (rn rm : Reg) (off : BitVec 12) (sa : BitVec 5) (sh : Shift) (s : State),
    Computes (.pldImm u rn off) s s.cpsr [] ∧ (rm ≠ 15 → Computes (.pldReg u rn sa sh rm) s s.cpsr []) ∧
    exec (.pldReg u rn sa sh 15) s = .refused (.unpredictable .pcOperand)

/-- LDM(1) without r15 and LDM(2): the listed registers, lowest first, from the lowest address up, the base as written back,
and the frame; LDM(2) loads the User bank, is refused without one, and marks the hazard (R385, R386, R388, R389, R656). -/
def Obligations.LoadMultipleFillsTheList : Prop :=
  ∀ (c : Cond) (p u w : Bool) (rn : Reg) (l : BitVec 15) (s : State), s.cpsr.passes c = true →
    let list : BitVec 16 := 0#1 ++ l
    let n := (listed list).length
    let start := multiStart p u n (s.reg rn)
    let i := Instr.ldm1 c p u w rn list
    let j := Instr.ldm2 c p u 0 rn l
    (i.check = none → s.Clean → s.AnswersAll .read n start →
      Gives (exec i s) s s.nextAddr s.cpsr
        ((if w then [(s.phys rn, multiBack u n (s.reg rn))] else []) ++ s.loaded s.phys list start) []) ∧
    (j.check = none → (excMode s.cpsr.m).isSome = true → s.Clean → s.AnswersAll .read n start →
      Gives (exec j s) s s.nextAddr s.cpsr (s.loaded userReg list start) [] ∧
      ∀ t, exec j s = .next t → t.bankHazard = true) ∧
    (j.check = none → excMode s.cpsr.m = none → exec j s = .refused (.unpredictable .noSpsr))

/-- LDM(1) with r15, LDM(3), and POP with the pc: the other registers and the base as without r15, and the pc from the last
word: LDM(1) and POP by the LT rule, LDM(3) as the return from an exception (R388, R390, R354, R501). That it does so too from a
base with low bits other than 00 and A = 0 is the model's choice (log 42): R118(b) and U3 speak of a refusal there. -/
def Obligations.LoadMultipleOfThePcBranches : Prop :=
  ∀ (c : Cond) (p u w : Bool) (rn : Reg) (l : BitVec 15) (r : BitVec 8) (s : State),
    let branches := fun (i : Instr) (base : Reg) (list : BitVec 16) (pp uu ww : Bool) =>
      let n := (listed list).length
      let start := multiStart pp uu n (s.reg base)
      let v := s.valueAt 4 (start + BitVec.ofNat 32 (4 * (n - 1)))
      let dst := (if ww then [(s.phys base, multiBack uu n (s.reg base))] else []) ++ s.loaded s.phys list start
      i.check = none → s.Clean → s.AnswersAll .read n start →
      (s.ctl.lt = true →
        Gives (exec i s) s (v &&& (if s.cpsr.t then 0xFFFFFFFE else 0xFFFFFFFC)) s.cpsr dst []) ∧
      (s.ctl.lt = false → v.getLsbD 0 = true →
        Gives (exec i s) s (v &&& 0xFFFFFFFE) { s.cpsr with t := true } dst []) ∧
      (s.ctl.lt = false → v.toNat % 4 = 0 → Gives (exec i s) s v { s.cpsr with t := false } dst []) ∧
      (s.ctl.lt = false → v.toNat % 4 = 2 → exec i s = .refused (.unpredictable .target))
    (s.cpsr.passes c = true → branches (.ldm1 c p u w rn (1#1 ++ l)) rn (1#1 ++ l) p u w) ∧
    branches (.tPop true r) 13 (0x80#8 ++ r) false true true ∧
    (s.cpsr.passes c = true →
      let list : BitVec 16 := 1#1 ++ l
      let n := (listed list).length
      let start := multiStart p u n (s.reg rn)
      let v := s.valueAt 4 (start + BitVec.ofNat 32 (4 * (n - 1)))
      let dst := (if w then [(s.phys rn, multiBack u n (s.reg rn))] else []) ++ s.loaded s.phys list start
      let i := Instr.ldm3 c p u w rn l
      i.check = none →
      (excMode s.cpsr.m = none → exec i s = .refused (.unpredictable .noSpsr)) ∧
      ∀ e : ExcMode, excMode s.cpsr.m = some e → legalMode (s.spsr e).m = true → s.Clean → s.AnswersAll .read n start →
        ((s.spsr e).t = true → Gives (exec i s) s (v &&& 0xFFFFFFFE) (s.spsr e) dst []) ∧
        ((s.spsr e).t = false → v.toNat % 4 = 0 → Gives (exec i s) s v (s.spsr e) dst []) ∧
        ((s.spsr e).t = false → v.toNat % 4 ≠ 0 → exec i s = .refused (.unpredictable .target)))

/-- STM(1) and STM(2): the listed registers, lowest first, at ascending words, and the base as written back. A base in the
list that is not the lowest is stored as a free value when the form writes back (the model's choice, log 37); STM(2) stores
the User bank, is refused without one, and marks the hazard (R385, R386, R391, R392, R656). -/
def Obligations.StoreMultipleWritesTheList : Prop :=
  ∀ (c : Cond) (p u w : Bool) (rn : Reg) (list : BitVec 16) (s : State), s.cpsr.passes c = true →
    let n := (listed list).length
    let start := multiStart p u n (s.reg rn)
    let i := Instr.stm1 c p u w rn list
    let j := Instr.stm2 c p u 0 rn list
    (i.check = none → s.Clean → s.AnswersAll .write n start →
      Gives (exec i s) s s.nextAddr s.cpsr (if w then [(s.phys rn, multiBack u n (s.reg rn))] else [])
        (storesOf ((listed list).map (s.storedWord w rn list)) start)) ∧
    (∀ r, (r ≠ rn ∨ w = false ∨ isLowest list rn = true) →
      s.storedWord w rn list r = if r = 15 then s.storedPc else s.getPhys (s.phys r)) ∧
    (j.check = none → (excMode s.cpsr.m).isSome = true → s.Clean → s.AnswersAll .write n start →
      Gives (exec j s) s s.nextAddr s.cpsr [] (storesOf ((listed list).map s.storedUser) start) ∧
      ∀ t, exec j s = .next t → t.bankHazard = true) ∧
    (j.check = none → excMode s.cpsr.m = none → exec j s = .refused (.unpredictable .noSpsr))

/-- SWP and SWPB, with no other agent acting between the two halves: the old word (rotated by a misaligned address) or byte comes
into Rd, and Rm is stored in its place (R396, R397, R353). -/
def Obligations.SwapsExchangeMemory : Prop :=
  ∀ (c : Cond) (rn rd rm : Reg) (s : State), s.cpsr.passes c = true → s.Clean → s.inside = [] →
    ((Instr.swp c rn rd 0 rm).check = none → s.Answers .swapRead 4 s.priv (s.reg rn) →
      s.Answers .swapWrite 4 s.priv (s.reg rn) →
      Gives (exec (.swp c rn rd 0 rm) s) s s.nextAddr s.cpsr [(s.phys rd, s.loadWord (s.reg rn))]
        [⟨s.reg rn, 4, s.reg rm⟩]) ∧
    ((Instr.swpb c rn rd 0 rm).check = none → s.Answers .swapRead 1 s.priv (s.reg rn) →
      s.Answers .swapWrite 1 s.priv (s.reg rn) →
      Gives (exec (.swpb c rn rd 0 rm) s) s s.nextAddr s.cpsr [(s.phys rd, s.loadByte false (s.reg rn))]
        [⟨s.reg rn, 1, s.reg rm⟩])

/-- An access that breaks the alignment with A = 1, or that the AHB answers with an error that the core sees, takes the Data Abort:
every single load or store, bytes included, LDRD and STRD, LDM(1) to LDM(3), STM(1), STM(2), PUSH, POP, STMIA and LDMIA, SWP and SWPB. Every
register is as before but r14_abt and, for a load of several words, the listed ones: the base and the pc are not among these.
That the base is restored is the model's choice (D15, log 8). Memory is as before but the bytes that the instruction stores
to (R118, R142, R350, R351, R387, R504, R545). -/
def Obligations.AbortedAccessKeepsBaseAndDestination : Prop :=
  ∀ (i : Instr) (s : State), i.check = none → s.cpsr.passes (accessed s.cpsr.m i).1 = true → s.Quiet →
    (∀ x : Access, s.access i = some x →
      (s.alignFault x.size x.addr = true → Enters (exec i s) s .dataAbort) ∧
      (misaligned x.size x.addr = false → s.BusError x.kind x.size x.priv x.addr →
        Aborts (exec i s) s [] (if x.kind = .write then [(x.addr, x.size)] else []))) ∧
    (∀ x : Transfer, s.transfer i = some x →
      (s.inside = [] → s.alignFault x.align x.addr = true → Aborts (exec i s) s x.lost []) ∧
      (s.TransferFails x → Aborts (exec i s) s x.lost
        (if x.kind = .write then (List.range x.count).map fun j => (x.word j, 4) else []))) ∧
    (∀ (c : Cond) (rn rd rm : Reg) (size : Nat),
      i = .swp c rn rd 0 rm ∧ size = 4 ∨ i = .swpb c rn rd 0 rm ∧ size = 1 →
      let a := s.reg rn
      (s.alignFault size a = true → Enters (exec i s) s .dataAbort) ∧
      (s.alignFault size a = false → s.BusError .swapRead size s.priv a → Enters (exec i s) s .dataAbort) ∧
      (s.inside = [] → s.Answers .swapRead size s.priv a → s.BusError .swapWrite size s.priv a →
        Aborts (exec i s) s [] [(a, size)]))

/-- A load after a store to the same address brings the stored value, whether the store is still buffered or not (R124, R129). -/
def Obligations.LoadAfterStoreBringsTheValue : Prop :=
  ∀ (size : Nat) (priv opened swap swap' : Bool) (a v : Word) (s : State), size = 1 ∨ size = 2 ∨ size = 4 →
    s.Clean → s.Answers (if swap then .swapWrite else .write) size priv a →
    s.Answers (if swap' then .swapRead else .read) size priv a →
    ∃ b t t', storeData size priv opened swap a v s = .ok b t ∧
      loadData size priv swap' a t = .ok (v &&& BitVec.ofNat 32 (2 ^ (8 * size) - 1)) t'

/-! ### Coprocessors -/

/-- MRC from CP15 in a privileged mode: each register as its rule lays it out; a selector that R232 does not list for reading is
refused (R52, R53, R232 to R235, R240, R241). That Opcode_2 = 1 selects the Trace Process ID Register is the model's choice
(D8, log 25). -/
def Obligations.Cp15ReadsItsRegisters : Prop :=
  ∀ (c : Cond) (rd : Reg) (o1 op2 : BitVec 3) (crn crm : BitVec 4) (s : State), s.cpsr.passes c = true → s.priv = true →
    rd ≠ 15 →
    let reads := fun (i : Instr) (v : Word) => Computes i s s.cpsr [(s.phys rd, v)]
    let bit := fun (b : Bool) (k : Nat) => if b then 1#32 <<< k else 0
    let size := fun (code : BitVec 5) => code.setWidth 32 <<< 6 ||| bit (decide (code = 0)) 2
    (op2 ≠ 2 → reads (.mrc15 c 0 0 rd op2 0) (if s.params.idMinor then 0x41059681 else 0x41059680)) ∧
    reads (.mrc15 c 0 0 rd 2 0) (size s.params.dtcmSize <<< 12 ||| size s.params.itcmSize) ∧
    reads (.mrc15 c 0 1 rd 0 0) (0x00000F70 ||| bit s.ctl.lt 15 ||| bit s.ctl.v 13 ||| bit s.ctl.i 12 ||| bit s.ctl.b 7 |||
      bit s.ctl.w 3 ||| bit s.ctl.d 2 ||| bit s.ctl.a 1) ∧
    reads (.mrc15 c 0 13 rd 1 crm) s.procId ∧
    reads (.mrc15 c 1 15 rd 0 1) (bit s.cfg.i 18 ||| bit s.cfg.d 17 ||| bit s.cfg.b 16 ||| bit s.cfg.fm 2 ||| bit s.cfg.im 1) ∧
    (¬ (o1 = 0 ∧ crn = 0 ∧ crm = 0) → ¬ (o1 = 0 ∧ crn = 1 ∧ op2 = 0 ∧ crm = 0) → ¬ (o1 = 0 ∧ crn = 13 ∧ op2 = 1) →
      ¬ (o1 = 1 ∧ crn = 15 ∧ op2 = 0 ∧ crm = 1) →
      exec (.mrc15 c o1 crn rd op2 crm) s = .refused (.unpredictable .cpSelector))

/-- MCR to CP15 in a privileged mode: the Control Register, the Configuration Control Register, the Trace Process ID Register,
the drain of the write buffers and the wait for interrupt, each with everything else unchanged; switching a TCM off while its
write buffer holds data, reserved bits other than as prescribed, and a selector that R232 does not list for writing, are refused (R232, R236, R240, R242, R244, R246,
R132, R136). That Opcode_2 = 1 selects the Trace Process ID Register is the model's choice (D8, log 25). R240 has ETMPROCIDWR pulse at
a write of that register: that the pulses are counted, and come only in the full debug configuration with ETMEN HIGH (R601, R611), is the
model's choice (log 40). For a core that is halted in debug state, where the debugger has scanned the wait for interrupt in, R244 does not
say what it does: that it sets Standby there too is the model's choice (log 31). -/
def Obligations.Cp15WritesItsRegisters : Prop :=
  ∀ (c : Cond) (rd : Reg) (o1 o2 : BitVec 3) (crn crm : BitVec 4) (s : State), s.cpsr.passes c = true → s.priv = true →
    rd ≠ 15 →
    let v := s.reg rd
    let goes := fun (i : Instr) (t : State) => exec i s = .next { t with pc := s.nextAddr,
                                                                         pastTop := decide (2 ^ 32 ≤ s.pc.toNat + s.instrLen),
                                                                         bankHazard := false }
    (v &&& 0xFFFF4F71 = 0x00000F70 → (s.itcmWB = [] ∨ v.getLsbD 12 = true ∨ s.ctl.i = false) →
      (s.dtcmWB = [] ∨ v.getLsbD 2 = true ∨ s.ctl.d = false) →
      ∃ routes, goes (.mcr15 c 0 1 rd 0 0)
        { s with ctl := { lt := v.getLsbD 15, v := v.getLsbD 13, i := v.getLsbD 12, b := v.getLsbD 7, w := v.getLsbD 3,
                          d := v.getLsbD 2, a := v.getLsbD 1 }, oldRoutes := routes }) ∧
    (v &&& 0xFFFF4F71 ≠ 0x00000F70 → exec (.mcr15 c 0 1 rd 0 0) s = .refused (.unpredictable .cpReserved)) ∧
    (v &&& 0xFFFF4F71 = 0x00000F70 →
      (s.itcmWB ≠ [] ∧ s.ctl.i = true ∧ v.getLsbD 12 = false ∨ s.dtcmWB ≠ [] ∧ s.ctl.d = true ∧ v.getLsbD 2 = false) →
      exec (.mcr15 c 0 1 rd 0 0) s = .refused (.unpredictable .tcmNotDrained)) ∧
    (v &&& 0xFFF8FFF9 = 0 → ∃ routes, goes (.mcr15 c 1 15 rd 0 1)
        { s with cfg := { i := v.getLsbD 18, d := v.getLsbD 17, b := v.getLsbD 16, fm := v.getLsbD 2, im := v.getLsbD 1 },
                 ipb := if v.getLsbD 16 then [] else s.ipb, ipbNext := if v.getLsbD 16 then none else s.ipbNext,
                 oldRoutes := routes }) ∧
    (v &&& 0xFFF8FFF9 ≠ 0 → exec (.mcr15 c 1 15 rd 0 1) s = .refused (.unpredictable .cpReserved)) ∧
    goes (.mcr15 c 0 13 rd 1 crm)
      { s with procId := v, procIdWrites := if s.params.fullDebug && s.pins.etmen then s.procIdWrites + 1 else s.procIdWrites } ∧
    ((o1, crn, o2, crm) ∉ [(0, 1, 0, 0), (0, 7, 4, 0), (0, 15, 2, 8), (0, 7, 4, 10), (1, 15, 0, 1)] →
      ¬ (o1 = 0 ∧ crn = 13 ∧ o2 = 1) →
      exec (.mcr15 c o1 crn rd o2 crm) s = .refused (.unpredictable .cpSelector)) ∧
    (s.Clean → ∀ i ∈ [Instr.mcr15 c 0 7 rd 4 10, .mcr15 c 0 7 rd 4 0, .mcr15 c 0 15 rd 2 8],
      ∃ t, exec i s = .next t ∧ t.ahbWB = [] ∧ t.itcmWB = [] ∧ t.dtcmWB = [] ∧ MemoryStays s t ∧
        t.standby = (if i = .mcr15 c 0 7 rd 4 10 then s.standby else true) ∧
        RegistersBecome [] s t ∧ t.spsrs = s.spsrs ∧ SystemStays s { t with standby := s.standby } ∧ t.pc = s.nextAddr ∧
        t.cpsr = s.cpsr)

/-- In User mode every MCR and MRC to CP15 takes the Undefined Instruction exception, and every one to CP14 is refused (R230,
R260). -/
def Obligations.UserModeHasNoCp15 : Prop :=
  ∀ (c : Cond) (o1 o2 : BitVec 3) (crn crm : BitVec 4) (rd : Reg) (s : State), s.cpsr.passes c = true →
    s.cpsr.m = modeUser →
    Enters (exec (.mcr15 c o1 crn rd o2 crm) s) s .undef ∧ Enters (exec (.mrc15 c o1 crn rd o2 crm) s) s .undef ∧
    exec (.mcr14 c o1 crn rd o2 crm) s = .refused (.unpredictable .cp14User) ∧
    exec (.mrc14 c o1 crn rd o2 crm) s = .refused (.unpredictable .cp14User)

/-- The debug communications channel: reading the status, reading the data clears R, writing the data sets W, and the monitor
status bit; a data read with R = 0 gives some value (U6), a data write with W = 1 leaves the old or the new message (U5, log 23) (R262 to
R266). An MRC or MCR at a selector that R261 does not list for it, the write of the read-only status register among them, is
refused (R261, R262, U14). -/
def Obligations.DebugChannelTransfers : Prop :=
  ∀ (c : Cond) (rd : Reg) (o1 o2 : BitVec 3) (crn crm : BitVec 4) (s : State), s.cpsr.passes c = true → s.priv = true → rd ≠ 15 →
    let v := s.reg rd
    let goes := fun (i : Instr) (t : State) => exec i s = .next { t with pc := s.nextAddr,
                                                                         pastTop := decide (2 ^ 32 ≤ s.pc.toNat + s.instrLen),
                                                                         bankHazard := false }
    Computes (.mrc14 c 0 0 rd 0 0) s s.cpsr
      [(s.phys rd, 0x60000000 ||| (if s.dcc.w then 2 else 0) ||| (if s.dcc.r then 1 else 0))] ∧
    Computes (.mrc14 c 0 2 rd 0 0) s s.cpsr [(s.phys rd, if s.dcc.dbgAbt then 1 else 0)] ∧
    (s.dcc.r = true → goes (.mrc14 c 0 1 rd 0 0)
      { s.setPhys (s.phys rd) s.dcc.readData with dcc := { s.dcc with r := false } }) ∧
    (s.dcc.r = false → ∃ w, goes (.mrc14 c 0 1 rd 0 0) { s.setPhys (s.phys rd) w with free := s.free + 1 }) ∧
    (s.dcc.w = false → goes (.mcr14 c 0 1 rd 0 0) { s with dcc := { s.dcc with writeData := v, w := true } }) ∧
    (s.dcc.w = true → ∃ w, (w = s.dcc.writeData ∨ w = v) ∧ goes (.mcr14 c 0 1 rd 0 0)
      { s with dcc := { s.dcc with writeData := w }, free := s.free + 1 }) ∧
    (v &&& 0xFFFFFFFE = 0 → goes (.mcr14 c 0 2 rd 0 0) { s with dcc := { s.dcc with dbgAbt := v.getLsbD 0 } }) ∧
    (v &&& 0xFFFFFFFE ≠ 0 → exec (.mcr14 c 0 2 rd 0 0) s = .refused (.unpredictable .cpReserved)) ∧
    ((o1, crn, o2, crm) ∉ [(0, 0, 0, 0), (0, 1, 0, 0), (0, 2, 0, 0)] →
      exec (.mrc14 c o1 crn rd o2 crm) s = .refused (.unpredictable .cpSelector)) ∧
    ((o1, crn, o2, crm) ∉ [(0, 1, 0, 0), (0, 2, 0, 0)] →
      exec (.mcr14 c o1 crn rd o2 crm) s = .refused (.unpredictable .cpSelector))

/-! ### Thumb -/

/-- The Thumb shifts, moves and logical operations: the result, N, Z, C from the shifter where there is a shift, and nothing
else (R421 to R424, R436, R442 to R446, R449, R450, R453, R455, R456). -/
def Obligations.ThumbLogicalGivesResultAndFlags : Prop :=
  ∀ (n : BitVec 5) (imm : BitVec 8) (rm rd : LReg) (s : State),
    let m := s.reg rm.reg
    let d := s.reg rd.reg
    let gives := fun (i : Instr) (r : Word) (c : Bool) =>
      Computes i s (flagsLogical true s.cpsr r c) [(s.phys rd.reg, r)]
    let shifts := fun (i : Instr) (x : Shifted) => gives i x.value x.carry
    let amount := (m.setWidth 8).toNat
    shifts (.tLslImm n rm rd) (shiftByImm .lsl n m s.cpsr.c) ∧ shifts (.tLsrImm n rm rd) (shiftByImm .lsr n m s.cpsr.c) ∧
    shifts (.tAsrImm n rm rd) (shiftByImm .asr n m s.cpsr.c) ∧ shifts (.tLslReg rm rd) (shiftByReg .lsl amount d s.cpsr.c) ∧
    shifts (.tLsrReg rm rd) (shiftByReg .lsr amount d s.cpsr.c) ∧ shifts (.tAsrReg rm rd) (shiftByReg .asr amount d s.cpsr.c) ∧
    shifts (.tRor rm rd) (shiftByReg .ror amount d s.cpsr.c) ∧
    gives (.tMovImm rd imm) (imm.setWidth 32) s.cpsr.c ∧ gives (.tAnd rm rd) (d &&& m) s.cpsr.c ∧
    gives (.tEor rm rd) (d ^^^ m) s.cpsr.c ∧ gives (.tOrr rm rd) (d ||| m) s.cpsr.c ∧
    gives (.tBic rm rd) (d &&& ~~~m) s.cpsr.c ∧ gives (.tMvn rm rd) (~~~m) s.cpsr.c ∧
    Computes (.tTst rm rd) s (flagsLogical true s.cpsr (d &&& m) s.cpsr.c) []

/-- The Thumb additions, subtractions, compares and MUL on the low registers: the result, the flags, and nothing else (R421,
R425 to R427, R432 to R434, R439, R440, R447, R448, R451, R452, R454). -/
def Obligations.ThumbArithmeticGivesResultAndFlags : Prop :=
  ∀ (i3 : BitVec 3) (imm : BitVec 8) (rm rn rd : LReg) (s : State),
    let m := s.reg rm.reg
    let n := s.reg rn.reg
    let d := s.reg rd.reg
    let adds := fun (i : Instr) (x y : Word) (carry : Bool) =>
      Computes i s (flagsAdd true s.cpsr x y carry) [(s.phys rd.reg, x + y + if carry then 1 else 0)]
    let subs := fun (i : Instr) (x y : Word) (borrow : Bool) =>
      Computes i s (flagsSub true s.cpsr x y borrow) [(s.phys rd.reg, x - y - if borrow then 1 else 0)]
    adds (.tAddReg rm rn rd) n m false ∧ adds (.tAddImm3 i3 rn rd) n (i3.setWidth 32) false ∧
    adds (.tAddImm8 rd imm) d (imm.setWidth 32) false ∧ adds (.tAdc rm rd) d m s.cpsr.c ∧
    subs (.tSubReg rm rn rd) n m false ∧ subs (.tSubImm3 i3 rn rd) n (i3.setWidth 32) false ∧
    subs (.tSubImm8 rd imm) d (imm.setWidth 32) false ∧ subs (.tSbc rm rd) d m (!s.cpsr.c) ∧
    subs (.tNeg rm rd) 0 m false ∧
    Computes (.tCmpImm rn imm) s (flagsSub true s.cpsr n (imm.setWidth 32) false) [] ∧
    Computes (.tCmpReg rm rn) s (flagsSub true s.cpsr n m false) [] ∧
    Computes (.tCmn rm rn) s (flagsAdd true s.cpsr n m false) [] ∧
    (rd ≠ rm → Computes (.tMul rm rd) s (flagsLogical true s.cpsr (m * d) s.cpsr.c) [(s.phys rd.reg, m * d)])

/-- The Thumb high-register forms, and the additions to the pc and to the stack pointer: no flags but CMP(3)'s; a result to
r15 is a branch in the same state (R428 to R431, R435, R438, R441, R331). -/
def Obligations.ThumbHighRegistersAndStackPointer : Prop :=
  ∀ (h1 h2 : Bool) (rm rd : LReg) (imm : BitVec 8) (i7 : BitVec 7) (s : State),
    let d := hiReg h1 rd
    let m := s.reg (hiReg h2 rm)
    let gives := fun (i : Instr) (v : Word) => (h1 || h2) = true →
      (d ≠ 15 → Computes i s s.cpsr [(s.phys d, v)]) ∧
      (d = 15 → Gives (exec i s) s (v &&& 0xFFFFFFFE) s.cpsr [] [])
    gives (.tAddHi h1 h2 rm rd) (s.reg d + m) ∧ gives (.tMovHi h1 h2 rm rd) m ∧
    ((h1 || h2) = true → d ≠ 15 → Computes (.tCmpHi h1 h2 rm rd) s (flagsSub true s.cpsr (s.reg d) m false) []) ∧
    Computes (.tAddPc rd imm) s s.cpsr [(s.phys rd.reg, ((s.pc + 4) &&& 0xFFFFFFFC) + imm.setWidth 32 * 4)] ∧
    Computes (.tAddSp rd imm) s s.cpsr [(s.phys rd.reg, s.reg 13 + imm.setWidth 32 * 4)] ∧
    Computes (.tIncSp i7) s s.cpsr [(s.phys 13, s.reg 13 + i7.setWidth 32 * 4)] ∧
    Computes (.tDecSp i7) s s.cpsr [(s.phys 13, s.reg 13 - i7.setWidth 32 * 4)]

/-- The Thumb single loads and stores: each address form, size and extension, and the frame; a misaligned word or
halfword with A = 0 is refused (R480 to R497, R118). -/
def Obligations.ThumbLoadsAndStores : Prop :=
  ∀ (i5 : BitVec 5) (imm : BitVec 8) (rm rn rd : LReg) (s : State),
    let o := fun (a : Word) => ({ addr := a, wb := none } : Address)
    let loads := fun (i : Instr) (a : Word) (size : Nat) (v : Word) =>
      (s.LoadReady size s.priv a → a.toNat % size = 0 → Loads i s 0 rd.reg (o a) v) ∧
      (s.ctl.a = false → size = 4 → a.toNat % 4 ≠ 0 → exec i s = .refused (.unpredictable .misalignedThumb)) ∧
      (s.ctl.a = false → size = 2 → a.toNat % 2 ≠ 0 → exec i s = .refused (.unpredictable .misalignedHalf))
    let stores := fun (i : Instr) (a : Word) (size : Nat) =>
      (s.StoreReady size s.priv a → a.toNat % size = 0 → Stores i s 0 (o a) size (s.reg rd.reg)) ∧
      (s.ctl.a = false → size = 4 → a.toNat % 4 ≠ 0 → exec i s = .refused (.unpredictable .misalignedThumb)) ∧
      (s.ctl.a = false → size = 2 → a.toNat % 2 ≠ 0 → exec i s = .refused (.unpredictable .misalignedHalf))
    let b := s.reg rn.reg
    let x := b + s.reg rm.reg
    let sp := s.reg 13 + imm.setWidth 32 * 4
    let pc := ((s.pc + 4) &&& 0xFFFFFFFC) + imm.setWidth 32 * 4
    let j := fun k : Word => b + i5.setWidth 32 * k
    loads (.tLdrImm i5 rn rd) (j 4) 4 (s.valueAt 4 (j 4)) ∧ loads (.tLdrReg rm rn rd) x 4 (s.valueAt 4 x) ∧
    loads (.tLdrPc rd imm) pc 4 (s.valueAt 4 pc) ∧ loads (.tLdrSp rd imm) sp 4 (s.valueAt 4 sp) ∧
    loads (.tLdrbImm i5 rn rd) (j 1) 1 (s.loadByte false (j 1)) ∧ loads (.tLdrbReg rm rn rd) x 1 (s.loadByte false x) ∧
    loads (.tLdrhImm i5 rn rd) (j 2) 2 (s.loadHalf false (j 2)) ∧ loads (.tLdrhReg rm rn rd) x 2 (s.loadHalf false x) ∧
    loads (.tLdrsb rm rn rd) x 1 (s.loadByte true x) ∧ loads (.tLdrsh rm rn rd) x 2 (s.loadHalf true x) ∧
    stores (.tStrImm i5 rn rd) (j 4) 4 ∧ stores (.tStrReg rm rn rd) x 4 ∧ stores (.tStrSp rd imm) sp 4 ∧
    stores (.tStrbImm i5 rn rd) (j 1) 1 ∧ stores (.tStrbReg rm rn rd) x 1 ∧
    stores (.tStrhImm i5 rn rd) (j 2) 2 ∧ stores (.tStrhReg rm rn rd) x 2

/-- PUSH, POP without the pc, STMIA and LDMIA: the words of the list between registers and ascending addresses, and the base;
LDMIA with the base in the list loads it and does not write it back; STMIA with the base in the list and not lowest is refused
(R500 to R503, R536). -/
def Obligations.ThumbMultipleTransfers : Prop :=
  ∀ (r : Bool) (l : BitVec 8) (rn : LReg) (s : State), s.Clean →
    let sp := s.reg 13
    let b := s.reg rn.reg
    let n (list : BitVec 16) := (listed list).length
    let push : BitVec 16 := (if r then 0x40#8 else 0) ++ l
    let low : BitVec 16 := 0#8 ++ l
    let bytes (list : BitVec 16) := BitVec.ofNat 32 (4 * n list)
    (push ≠ 0 → s.AnswersAll .write (n push) (sp - bytes push) →
      Gives (exec (.tPush r l) s) s s.nextAddr s.cpsr [(s.phys 13, sp - bytes push)]
        (storesOf ((listed push).map fun q => s.getPhys (s.phys q)) (sp - bytes push))) ∧
    (l ≠ 0 → s.AnswersAll .read (n low) sp →
      Gives (exec (.tPop false l) s) s s.nextAddr s.cpsr ((s.phys 13, sp + bytes low) :: s.loaded s.phys low sp) []) ∧
    (l ≠ 0 → l.getLsbD rn.toNat = false ∨ isLowest low rn.reg = true → s.AnswersAll .write (n low) b →
      Gives (exec (.tStmia rn l) s) s s.nextAddr s.cpsr [(s.phys rn.reg, b + bytes low)]
        (storesOf ((listed low).map fun q => s.getPhys (s.phys q)) b)) ∧
    (l.getLsbD rn.toNat = true → isLowest low rn.reg = false →
      exec (.tStmia rn l) s = .refused (.unpredictable .baseInList)) ∧
    (l ≠ 0 → s.AnswersAll .read (n low) b →
      Gives (exec (.tLdmia rn l) s) s s.nextAddr s.cpsr
        ((if l.getLsbD rn.toNat then [] else [(s.phys rn.reg, b + bytes low)]) ++ s.loaded s.phys low b) [])

/-- The Thumb branches: B(1) on its condition, B(2), and the two halves of BL and BLX(1) (R510, R511, R521 to R523). -/
def Obligations.ThumbBranchesReachTheirTarget : Prop :=
  ∀ (c : Cond) (o8 : BitVec 8) (o10 : BitVec 10) (o11 : BitVec 11) (s : State),
    let from_ := fun (k : Int) => s.pc + 4 + BitVec.ofInt 32 k
    let link := (s.pc + 2) ||| 1
    (s.cpsr.passes c = true → Gives (exec (.tBCond c o8) s) s (from_ (2 * o8.toInt)) s.cpsr [] []) ∧
    (s.cpsr.passes c = false → Computes (.tBCond c o8) s s.cpsr []) ∧
    Gives (exec (.tB o11) s) s (from_ (2 * o11.toInt)) s.cpsr [] [] ∧
    Computes (.tBlPrefix o11) s s.cpsr [(s.phys 14, from_ (4096 * o11.toInt))] ∧
    Gives (exec (.tBlSuffix o11) s) s ((s.reg 14 + o11.setWidth 32 * 2) &&& 0xFFFFFFFE) s.cpsr [(s.phys 14, link)] [] ∧
    Gives (exec (.tBlxSuffix o10) s) s ((s.reg 14 + o10.setWidth 32 * 4) &&& 0xFFFFFFFC) { s.cpsr with t := false }
      [(s.phys 14, link)] []

/-! ### The whole machine -/

/-- Every step keeps the three memories in canonical form, addresses strictly rising. -/
def Obligations.StepKeepsCanonicalMemory : Prop :=
  ∀ s t : State, s.MemWf → step s = .next t → t.MemWf

/-- Every step keeps the mode one of the seven, or leaves the core unrecoverable (R45, R46). -/
def Obligations.StepKeepsLegalMode : Prop :=
  ∀ s t : State, s.ModeOk → step s = .next t → t.ModeOk

/-- Every step keeps the pc aligned for the state: to words in ARM state, to halfwords in Thumb state (R37). -/
def Obligations.StepKeepsAlignedPc : Prop :=
  ∀ s t : State, s.PcAligned → step s = .next t → t.PcAligned

/-- No step puts more into a buffer than it holds (R67 to R69, R121, R128, R134). -/
def Obligations.StepKeepsBufferDepths : Prop :=
  ∀ s t : State, s.BuffersFit → step s = .next t → t.BuffersFit

/-- An instruction in User mode leaves CP15, the Trace Process ID, the debug channel's data and flags, and the interrupt mask
bits alone, and leaves User mode only by taking an exception: to the vector, with the CPSR saved (R43, R49, R230, R590 to
R592). -/
def Obligations.UserModeLeavesOnlyByException : Prop :=
  ∀ (i : Instr) (s t : State), s.cpsr.m = modeUser → exec i s = .next t →
    t.ctl = s.ctl ∧ t.cfg = s.cfg ∧ t.procId = s.procId ∧ t.procIdWrites = s.procIdWrites ∧
    { t.dcc with dbgAbt := s.dcc.dbgAbt } = s.dcc ∧
    (t.cpsr.m = modeUser ∧ t.cpsr.i = s.cpsr.i ∧ t.cpsr.f = s.cpsr.f ∧ t.spsrs = s.spsrs ∨
      ∃ e : Exc, t.cpsr.m = e.mode.bits ∧ t.cpsr.t = false ∧ t.cpsr.i = true ∧ t.pc = s.vectorBase + e.offset ∧
        t.spsr e.mode = s.cpsr)

/-- The machine after reset meets the four invariants. -/
def Obligations.ResetMeetsTheInvariants : Prop :=
  State.reset.MemWf ∧ State.reset.ModeOk ∧ State.reset.PcAligned ∧ State.reset.BuffersFit

/-- What Reset sets, for every value of the parameters: Supervisor mode, ARM state, FIQ and IRQ disabled, the pc at the Reset
vector, the Control and the Configuration Control Register, the Trace Process ID, no Standby, empty buffers. A warm reset
sets the same from every state; the debug registers stay, and with empty write buffers so does memory (R90, R93, R620 to
R622). -/
def Obligations.ResetSetsWhatTheSpecSays : Prop :=
  (∀ p : Params, ResetValues p (State.resetWith p)) ∧
  (∀ s : State, ResetValues s.params s.warmReset ∧ s.warmReset.dcc = s.dcc ∧
    s.warmReset.dbg = { s.dbg with halted := false } ∧
    (s.ahbWB = [] → s.itcmWB = [] → s.dtcmWB = [] →
      s.warmReset.itcm = s.itcm ∧ s.warmReset.dtcm = s.dtcm ∧ s.warmReset.ahb = s.ahb))

/-- The turns of the memory agents (R122, R128, R151 to R153): a write buffer drains its oldest entry, which changes nothing
that loads see if the write meets no error; the DMA master writes the TCM RAM under bit 22 of its address, whatever the enables, and
reads a whole word of the RAM; the core's registers are untouched. A drain or a DMA write to the TCM RAM that meets an error goes on, and
each byte it writes is the old or the new one (R143, R154, U40); that a write meets an error where the environment lists the word as in
error, and not by a power-on mark, is the model's choice (log 12). That DMA passes over the write buffers (D17), and that an address that is not
aligned for the size of the transfer is aligned down, are the model's choices (log 33). -/
def Obligations.AgentsActOnMemoryByTheirRules : Prop :=
  ∀ (s : State) (r : List Turn), s.forbidden = none →
    (s.CleanAhb → s.agenda = .bus .drainAhb :: r → ∃ t, step s = .next t ∧ t.ahbWB = s.ahbWB.tail ∧ MemoryStays s t ∧
      t = { s with agenda := r, ahb := t.ahb, ahbWB := t.ahbWB, free := t.free }) ∧
    (∀ m : Tcm, s.CleanTcm m → s.agenda = .bus (.drainTcm m) :: r →
      ∃ t, step s = .next t ∧ t.tcmWB m = (s.tcmWB m).tail ∧ MemoryStays s t ∧
        t = { s with agenda := r, itcm := t.itcm, dtcm := t.dtcm, itcmWB := t.itcmWB, dtcmWB := t.dtcmWB }) ∧
    (∀ (m : Tcm) (e : TcmEntry) (l : List TcmEntry), s.tcmWB m = e :: l → s.agenda = .bus (.drainTcm m) :: r →
      ∃ t, step s = .next t ∧ t.tcmWB m = l ∧
        t = { s with agenda := r, itcm := t.itcm, dtcm := t.dtcm, itcmWB := t.itcmWB, dtcmWB := t.dtcmWB, free := t.free } ∧
        (∀ m' ≠ m, t.ram m' = s.ram m' ∧ t.tcmWB m' = s.tcmWB m') ∧
        (∀ j, t.ramByte m j = s.ramByte m j ∨ e.byte? j = some (t.ramByte m j)) ∧
        (s.tcmWriteError m e.off = false → ∀ j, t.ramByte m j = (e.byte? j).getD (s.ramByte m j))) ∧
    (∀ (a v : Word) (size : Nat), s.agenda = .bus (.dmaWrite a size v) :: r → size = 1 ∨ size = 2 ∨ size = 4 →
      let m := if a.getLsbD 22 then Tcm.dtcm else Tcm.itcm
      s.tcmSize m ≠ 0 →
      let k := lane s.ctl.b size (a.toNat / size * size % 0x400000 % s.tcmSize m)
      ∃ t, step s = .next t ∧
        t = { s with agenda := r, itcm := t.itcm, dtcm := t.dtcm, pipe := t.pipe,
                     free := if s.tcmWriteError m k then t.free else s.free } ∧
        (s.tcmWriteError m k = false → (span k size).map (t.ramByte m) = wordBytes v size) ∧
        (∀ j < size, t.ramByte m (k + j) = s.ramByte m (k + j) ∨ t.ramByte m (k + j) = byteAt v j) ∧
        ∀ (m' : Tcm) (j : Nat), (m' ≠ m ∨ j ∉ span k size) → t.ramByte m' j = s.ramByte m' j) ∧
    (∀ a : Word, s.agenda = .bus (.dmaRead a) :: r →
      let m := if a.getLsbD 22 then Tcm.dtcm else Tcm.itcm
      s.tcmSize m ≠ 0 → s.params.tcmErrors = false →
      step s = .next { s with agenda := r,
                              dmaOut := some { data := ofBytes ((span (a.toNat / 4 * 4 % 0x400000 % s.tcmSize m) 4).map
                                                        (s.ramByte m)),
                                               err := false } })

/-- In Standby the core does nothing while no interrupt is requested; a request wakes it, masked or not (R71, R244, R596). With
FIFOFULL HIGH the core takes no step at an instruction boundary, unless an FIQ with FM = 0 or an IRQ with IM = 0 that the CPSR lets
through is taken; such a request that the CPSR masks ends Standby and nothing else. The core that has taken one runs on as long as it
stays in the mode entered, and stalls again when the mode is left; with no ETM the pin HIGH, or ETMEN HIGH, is refused, by the turn that
drives it and by every step of a state that holds it (R612, R671, U34). The model's choices, log 30:
that leaving the mode is what R612 means by the interrupt's service; that a masked request ends Standby; and that a second request
whose FM or IM bit is 1 is held back also while the core runs un-stalled, where R566 and R612 speak of the stalled core. -/
def Obligations.StandbyAndFifofullHoldTheCore : Prop :=
  (∀ s : State, s.params.legal = true → s.monitorStop = none → s.pins.fifofull = true → s.params.etm = false →
    step s = .refused (.unpredictable .fifofullNoEtm)) ∧
  (∀ s : State, s.params.legal = true → s.monitorStop = none → s.pins.fifofull = false → s.pins.etmen = true →
    s.params.etm = false → step s = .refused (.unpredictable .etmenNoEtm)) ∧
  (∀ (s : State) (p : Pins) (r : List Turn), s.forbidden = none → s.agenda = .bus (.setPins p) :: r →
    (s.drivePins p).monitorStop = none → s.params.etm = false →
    (p.fifofull = true → step s = .refused (.unpredictable .fifofullNoEtm)) ∧
    (p.fifofull = false → p.etmen = true → step s = .refused (.unpredictable .etmenNoEtm))) ∧
  ∀ s : State, s.forbidden = none → s.agenda = [] → s.unrecoverable = false → s.dbg.halted = false →
    s.debugRequest = false →
    let held := fun (pin mask : Bool) => pin = false ∨ mask = true
    let broken := fun (m : BitVec 5) => { s with
      standby := false, etmRun := some m, dbg := { s.dbg with bkptMatch := false } }
    (s.pins.fifofull = false → s.standby = true →
      (s.pins.fiq = false → s.pins.irq = false → step s = .next { s with etmRun := none }) ∧
      (s.pins.fiq = true ∨ s.pins.irq = true → step s = step { s with standby := false })) ∧
    (s.pins.fifofull = true → s.params.etm = true → s.etmRun ≠ some s.cpsr.m →
      (held s.pins.fiq s.cfg.fm → held s.pins.irq s.cfg.im → step s = .next { s with etmRun := none }) ∧
      (s.pastTop = false → s.dbg.wptLatch = false → s.pins.fiq = true → s.cfg.fm = false → s.cpsr.f = false →
        Enters (step s) (broken 0b10001) .fiq) ∧
      (s.pastTop = false → s.dbg.wptLatch = false → s.pins.irq = true → s.cfg.im = false → s.cpsr.i = false →
        held s.pins.fiq s.cfg.fm ∨ s.cpsr.f = true → Enters (step s) (broken 0b10010) .irq) ∧
      (¬ (held s.pins.fiq s.cfg.fm ∧ held s.pins.irq s.cfg.im) → held s.pins.fiq s.cfg.fm ∨ s.cpsr.f = true →
        held s.pins.irq s.cfg.im ∨ s.cpsr.i = true → step s = .next { s with etmRun := none, standby := false })) ∧
    (s.pins.fifofull = true → s.params.etm = true → s.etmRun = some s.cpsr.m → s.standby = false → s.pastTop = false →
      s.dbg.wptLatch = false → held s.pins.fiq s.cfg.fm ∨ s.cpsr.f = true → held s.pins.irq s.cfg.im ∨ s.cpsr.i = true →
      ∀ (s1 : State) (f : Fetched) (i : Instr), s.coreFetch = .ok f s1 → f.err = false → s1.breakHit f = false →
        s.staleRoute = false → decode (s1.code f.bits) = .ok i → s1.bankedUse i = false → step s = exec i s1)

/-- A halted core does nothing; a debug request with DBGEN HIGH, from the pin or from the Debug Control Register, halts the
core before any interrupt or fetch, ends Standby and records the state in bit 4 of the Debug Status Register; in monitor
debug-mode asserting EDBGRQ and setting the request bit are refused, by the turn that does it and by every step of a state that holds
such a request (R602, R605, R566, U20). A watchpoint on a single load or store in halt mode lets the access complete and is
latched; the next instruction completes too, an interrupt pending after it is entered, and then the core halts with r15 showing five
instructions on (R604; that these are ten bytes in Thumb state, and that no interrupt is entered past the top of the address space or
by an unrecoverable core, is logs 45 and 14's inference; that a debug request which came inside that instruction changes none of this,
although R605 ranks it above the interrupt, is log 45's choice; that the halt ends the Standby of a wait-for-interrupt there is log 31's). In
monitor debug-mode the access takes the Data Abort with DbgAbt set, the load's destination as before, and a store reaches memory or not (R606, U21); that a written-back base is as before is the model's choice (R351
by D15, log 8). What r15 shows after a debug request is free (log 45). -/
def Obligations.DebugRequestsAndWatchpointsTakeEffect : Prop :=
  (∀ s : State, s.forbidden = none → s.agenda = [] → s.unrecoverable = false →
    (s.dbg.halted = true → step s = .next s) ∧
    (s.dbg.halted = false → s.params.dbgen = true → s.pins.edbgrq = true ∨ s.dbg.request = true → s.dbg.monitor = false →
      ∃ v, step s = .next { s with standby := false, free := s.free + 1, dbg := s.dbg.afterEntry s.cpsr.t v })) ∧
  (∀ s : State, s.params.legal = true → s.externalHigh = false → s.params.dbgen = true → s.dbg.monitor = true →
    s.pins.edbgrq = true ∨ s.dbg.request = true → step s = .refused (.unpredictable .requestInMonitor)) ∧
  (∀ (s : State) (r : List Turn), s.forbidden = none → s.params.dbgen = true →
    (∀ p : Pins, s.agenda = .bus (.setPins p) :: r → s.dbg.monitor = true → p.edbgrq = true → p.ibkpt = false → p.dwpt = false →
      step s = .refused (.unpredictable .requestInMonitor)) ∧
    (∀ k : Bool, s.agenda = .debugControl true true k :: r → s.dbg.halted = false → s.dbg.wptLatch = false →
      s.pins.ibkpt = false → s.pins.dwpt = false → step s = .refused (.unpredictable .requestInMonitor))) ∧
  (∀ (i : Instr) (s : State) (x : Access), s.access i = some x → i.check = none →
    s.cpsr.passes (accessed s.cpsr.m i).1 = true → s.dbg.wptLatch = false → s.dbg.halted = false →
    s.params.dbgen = true → s.params.fullDebug = true → s.dbg.wptMatch.head? = some true ∨ s.pins.dwpt = true →
    s.unwatched.Answers x.kind x.size x.priv x.addr → misaligned x.size x.addr = false → s.Clean →
    (s.dbg.monitor = false → ∀ t, exec i s.unwatched = .next t → exec i s = .next { t with
      pins := s.pins, dbg := { s.dbg with wptMatch := s.dbg.wptMatch.tail, wptLatch := true } }) ∧
    (s.dbg.monitor = true → s.pins.dwpt = false → Aborts (exec i s)
      { s with dbg := { s.dbg with wptMatch := s.dbg.wptMatch.tail }, dcc := { s.dcc with dbgAbt := true } } []
      (if x.kind = .write then [(x.addr, x.size)] else []))) ∧
  (∀ (s s1 : State) (f : Fetched) (i : Instr), s.dbg.wptLatch = true → s.dbg.monitor = false →
    let s0 := { s with dbg := { s.dbg with wptLatch := false } }
    s0.Undisturbed → s0.coreFetch = .ok f s1 → f.err = false → s1.breakHit f = false → s0.staleRoute = false →
    decode (s1.code f.bits) = .ok i → s1.bankedUse i = false →
    ∀ t, exec i s1 = .next t → t.dbg.halted = false →
      let entered := fun (e : Exc) => ∃ u, step s = .next { u with dbg := u.dbg.afterEntry false (u.pc + 20) } ∧
        Enters (.next u) { t with standby := false, dbg := { t.dbg with bkptMatch := false },
                                  etmRun := if t.pins.fifofull then some e.mode.bits else none } e
      (t.takesFiq = false ∧ t.takesIrq = false ∨ t.pastTop = true ∨ t.unrecoverable = true → step s = .next { t with
        standby := false, dbg := t.dbg.afterEntry t.cpsr.t (t.pc + BitVec.ofNat 32 (5 * t.instrLen)) }) ∧
      (t.pastTop = false → t.unrecoverable = false → t.takesFiq = true → entered .fiq) ∧
      (t.pastTop = false → t.unrecoverable = false → t.takesFiq = false → t.takesIrq = true → entered .irq))
end

