-- ==== Sys2Proof/Laws/Decode.lean ====
section
/-! SUPPORT. What a field of an encoded word reads: the lemmas with which a round trip through `encode` and `decode` closes. -/

namespace Sys2Proof

@[simp] theorem Cond.ofBits_bits (c : Cond) : Cond.ofBits c.bits = some c := by cases c <;> decide

@[simp] theorem Shift.ofBits_bits (sh : Shift) : Shift.ofBits sh.bits = sh := by cases sh <;> decide

/-- A field inside the low part. -/
theorem put_lo {a b n : Nat} (hi : BitVec a) (lo : BitVec b) (s l : Nat) (h : s + l ≤ b) (hn : n = a + b) :
    (put n hi lo).extractLsb' s l = lo.extractLsb' s l := by
  subst hn
  apply BitVec.eq_of_getLsbD_eq
  intro i hi'
  have : s + i < b := by omega
  simp [put, BitVec.getLsbD_append, this, hi']

/-- A field inside the high part. -/
theorem put_hi {a b n : Nat} (hi : BitVec a) (lo : BitVec b) (s l : Nat) (h : b ≤ s) (hn : n = a + b) :
    (put n hi lo).extractLsb' s l = hi.extractLsb' (s - b) l := by
  subst hn
  apply BitVec.eq_of_getLsbD_eq
  intro i hi'
  have h1 : ¬ (s + i < b) := by omega
  have h2 : s + i - b = s - b + i := by omega
  simp [put, BitVec.getLsbD_append, h1, h2, hi']

/-- A bit of the low part. -/
theorem put_bit_lo {a b n : Nat} (hi : BitVec a) (lo : BitVec b) (i : Nat) (h : i < b) (hn : n = a + b) :
    (put n hi lo).getLsbD i = lo.getLsbD i := by
  subst hn
  simp [put, BitVec.getLsbD_append, h]

/-- A bit of the high part. -/
theorem put_bit_hi {a b n : Nat} (hi : BitVec a) (lo : BitVec b) (i : Nat) (h : b ≤ i) (hn : n = a + b) :
    (put n hi lo).getLsbD i = hi.getLsbD (i - b) := by
  subst hn
  simp [put, BitVec.getLsbD_append, Nat.not_lt.mpr h]

/-- Bits [24:21] = 0010, bit by bit. -/
theorem mcrr_bits {n : Nat} (w : BitVec n) : w.extractLsb' 21 4 = 0b0010#4 ↔
    (w.getLsbD 21 = false ∧ w.getLsbD 22 = true ∧ w.getLsbD 23 = false ∧ w.getLsbD 24 = false) := by
  constructor
  · intro h
    have h0 := congrArg (fun x : BitVec 4 => (x.getLsbD 0, x.getLsbD 1, x.getLsbD 2, x.getLsbD 3)) h
    simpa using h0
  · rintro ⟨h0, h1, h2, h3⟩
    apply BitVec.eq_of_getLsbD_eq
    intro i hi
    have : i = 0 ∨ i = 1 ∨ i = 2 ∨ i = 3 := by omega
    rcases this with rfl | rfl | rfl | rfl <;> simp_all

end Sys2Proof
end

