-- ==== Sys2Proof/Laws/State.lean ====
section
/-! SUPPORT. One lemma per field per update of the state, and what an update does to a register. -/

namespace Sys2Proof.Machine

/-! ### setPhys -/

@[simp] theorem State.setPhys_pc (s : State) (p : PhysReg) (v : Word) : (s.setPhys p v).pc = s.pc := rfl
@[simp] theorem State.setPhys_cpsr (s : State) (p : PhysReg) (v : Word) : (s.setPhys p v).cpsr = s.cpsr := rfl
@[simp] theorem State.setPhys_spsrs (s : State) (p : PhysReg) (v : Word) : (s.setPhys p v).spsrs = s.spsrs := rfl
@[simp] theorem State.setPhys_unrecoverable (s : State) (p : PhysReg) (v : Word) : (s.setPhys p v).unrecoverable = s.unrecoverable := rfl
@[simp] theorem State.setPhys_ctl (s : State) (p : PhysReg) (v : Word) : (s.setPhys p v).ctl = s.ctl := rfl
@[simp] theorem State.setPhys_cfg (s : State) (p : PhysReg) (v : Word) : (s.setPhys p v).cfg = s.cfg := rfl
@[simp] theorem State.setPhys_procId (s : State) (p : PhysReg) (v : Word) : (s.setPhys p v).procId = s.procId := rfl
@[simp] theorem State.setPhys_procIdWrites (s : State) (p : PhysReg) (v : Word) : (s.setPhys p v).procIdWrites = s.procIdWrites := rfl
@[simp] theorem State.setPhys_etmHeld (s : State) (p : PhysReg) (v : Word) : (s.setPhys p v).etmHeld = s.etmHeld := rfl
@[simp] theorem State.setPhys_dcc (s : State) (p : PhysReg) (v : Word) : (s.setPhys p v).dcc = s.dcc := rfl
@[simp] theorem State.setPhys_dbg (s : State) (p : PhysReg) (v : Word) : (s.setPhys p v).dbg = s.dbg := rfl
@[simp] theorem State.setPhys_standby (s : State) (p : PhysReg) (v : Word) : (s.setPhys p v).standby = s.standby := rfl
@[simp] theorem State.setPhys_itcm (s : State) (p : PhysReg) (v : Word) : (s.setPhys p v).itcm = s.itcm := rfl
@[simp] theorem State.setPhys_dtcm (s : State) (p : PhysReg) (v : Word) : (s.setPhys p v).dtcm = s.dtcm := rfl
@[simp] theorem State.setPhys_ahb (s : State) (p : PhysReg) (v : Word) : (s.setPhys p v).ahb = s.ahb := rfl
@[simp] theorem State.setPhys_itcmWB (s : State) (p : PhysReg) (v : Word) : (s.setPhys p v).itcmWB = s.itcmWB := rfl
@[simp] theorem State.setPhys_dtcmWB (s : State) (p : PhysReg) (v : Word) : (s.setPhys p v).dtcmWB = s.dtcmWB := rfl
@[simp] theorem State.setPhys_ahbWB (s : State) (p : PhysReg) (v : Word) : (s.setPhys p v).ahbWB = s.ahbWB := rfl
@[simp] theorem State.setPhys_ipb (s : State) (p : PhysReg) (v : Word) : (s.setPhys p v).ipb = s.ipb := rfl
@[simp] theorem State.setPhys_ipbNext (s : State) (p : PhysReg) (v : Word) : (s.setPhys p v).ipbNext = s.ipbNext := rfl
@[simp] theorem State.setPhys_pipe (s : State) (p : PhysReg) (v : Word) : (s.setPhys p v).pipe = s.pipe := rfl
@[simp] theorem State.setPhys_nonseq (s : State) (p : PhysReg) (v : Word) : (s.setPhys p v).nonseq = s.nonseq := rfl
@[simp] theorem State.setPhys_pastTop (s : State) (p : PhysReg) (v : Word) : (s.setPhys p v).pastTop = s.pastTop := rfl
@[simp] theorem State.setPhys_bankHazard (s : State) (p : PhysReg) (v : Word) : (s.setPhys p v).bankHazard = s.bankHazard := rfl
@[simp] theorem State.setPhys_oldRoutes (s : State) (p : PhysReg) (v : Word) : (s.setPhys p v).oldRoutes = s.oldRoutes := rfl
@[simp] theorem State.setPhys_etmRun (s : State) (p : PhysReg) (v : Word) : (s.setPhys p v).etmRun = s.etmRun := rfl
@[simp] theorem State.setPhys_pins (s : State) (p : PhysReg) (v : Word) : (s.setPhys p v).pins = s.pins := rfl
@[simp] theorem State.setPhys_ahbErrors (s : State) (p : PhysReg) (v : Word) : (s.setPhys p v).ahbErrors = s.ahbErrors := rfl
@[simp] theorem State.setPhys_itcmErrors (s : State) (p : PhysReg) (v : Word) : (s.setPhys p v).itcmErrors = s.itcmErrors := rfl
@[simp] theorem State.setPhys_dtcmErrors (s : State) (p : PhysReg) (v : Word) : (s.setPhys p v).dtcmErrors = s.dtcmErrors := rfl
@[simp] theorem State.setPhys_dmaOut (s : State) (p : PhysReg) (v : Word) : (s.setPhys p v).dmaOut = s.dmaOut := rfl
@[simp] theorem State.setPhys_dbgOut (s : State) (p : PhysReg) (v : Word) : (s.setPhys p v).dbgOut = s.dbgOut := rfl
@[simp] theorem State.setPhys_params (s : State) (p : PhysReg) (v : Word) : (s.setPhys p v).params = s.params := rfl
@[simp] theorem State.setPhys_free (s : State) (p : PhysReg) (v : Word) : (s.setPhys p v).free = s.free := rfl
@[simp] theorem State.setPhys_agenda (s : State) (p : PhysReg) (v : Word) : (s.setPhys p v).agenda = s.agenda := rfl
@[simp] theorem State.setPhys_inside (s : State) (p : PhysReg) (v : Word) : (s.setPhys p v).inside = s.inside := rfl

/-! ### setReg -/

@[simp] theorem State.setReg_pc (s : State) (r : Reg) (v : Word) : (s.setReg r v).pc = s.pc := by unfold State.setReg; split <;> rfl
@[simp] theorem State.setReg_cpsr (s : State) (r : Reg) (v : Word) : (s.setReg r v).cpsr = s.cpsr := by unfold State.setReg; split <;> rfl
@[simp] theorem State.setReg_spsrs (s : State) (r : Reg) (v : Word) : (s.setReg r v).spsrs = s.spsrs := by unfold State.setReg; split <;> rfl
@[simp] theorem State.setReg_unrecoverable (s : State) (r : Reg) (v : Word) : (s.setReg r v).unrecoverable = s.unrecoverable := by unfold State.setReg; split <;> rfl
@[simp] theorem State.setReg_ctl (s : State) (r : Reg) (v : Word) : (s.setReg r v).ctl = s.ctl := by unfold State.setReg; split <;> rfl
@[simp] theorem State.setReg_cfg (s : State) (r : Reg) (v : Word) : (s.setReg r v).cfg = s.cfg := by unfold State.setReg; split <;> rfl
@[simp] theorem State.setReg_procId (s : State) (r : Reg) (v : Word) : (s.setReg r v).procId = s.procId := by unfold State.setReg; split <;> rfl
@[simp] theorem State.setReg_procIdWrites (s : State) (r : Reg) (v : Word) : (s.setReg r v).procIdWrites = s.procIdWrites := by unfold State.setReg; split <;> rfl
@[simp] theorem State.setReg_etmHeld (s : State) (r : Reg) (v : Word) : (s.setReg r v).etmHeld = s.etmHeld := by unfold State.setReg; split <;> rfl
@[simp] theorem State.setReg_dcc (s : State) (r : Reg) (v : Word) : (s.setReg r v).dcc = s.dcc := by unfold State.setReg; split <;> rfl
@[simp] theorem State.setReg_dbg (s : State) (r : Reg) (v : Word) : (s.setReg r v).dbg = s.dbg := by unfold State.setReg; split <;> rfl
@[simp] theorem State.setReg_standby (s : State) (r : Reg) (v : Word) : (s.setReg r v).standby = s.standby := by unfold State.setReg; split <;> rfl
@[simp] theorem State.setReg_itcm (s : State) (r : Reg) (v : Word) : (s.setReg r v).itcm = s.itcm := by unfold State.setReg; split <;> rfl
@[simp] theorem State.setReg_dtcm (s : State) (r : Reg) (v : Word) : (s.setReg r v).dtcm = s.dtcm := by unfold State.setReg; split <;> rfl
@[simp] theorem State.setReg_ahb (s : State) (r : Reg) (v : Word) : (s.setReg r v).ahb = s.ahb := by unfold State.setReg; split <;> rfl
@[simp] theorem State.setReg_itcmWB (s : State) (r : Reg) (v : Word) : (s.setReg r v).itcmWB = s.itcmWB := by unfold State.setReg; split <;> rfl
@[simp] theorem State.setReg_dtcmWB (s : State) (r : Reg) (v : Word) : (s.setReg r v).dtcmWB = s.dtcmWB := by unfold State.setReg; split <;> rfl
@[simp] theorem State.setReg_ahbWB (s : State) (r : Reg) (v : Word) : (s.setReg r v).ahbWB = s.ahbWB := by unfold State.setReg; split <;> rfl
@[simp] theorem State.setReg_ipb (s : State) (r : Reg) (v : Word) : (s.setReg r v).ipb = s.ipb := by unfold State.setReg; split <;> rfl
@[simp] theorem State.setReg_ipbNext (s : State) (r : Reg) (v : Word) : (s.setReg r v).ipbNext = s.ipbNext := by unfold State.setReg; split <;> rfl
@[simp] theorem State.setReg_pipe (s : State) (r : Reg) (v : Word) : (s.setReg r v).pipe = s.pipe := by unfold State.setReg; split <;> rfl
@[simp] theorem State.setReg_nonseq (s : State) (r : Reg) (v : Word) : (s.setReg r v).nonseq = s.nonseq := by unfold State.setReg; split <;> rfl
@[simp] theorem State.setReg_pastTop (s : State) (r : Reg) (v : Word) : (s.setReg r v).pastTop = s.pastTop := by unfold State.setReg; split <;> rfl
@[simp] theorem State.setReg_bankHazard (s : State) (r : Reg) (v : Word) : (s.setReg r v).bankHazard = s.bankHazard := by unfold State.setReg; split <;> rfl
@[simp] theorem State.setReg_oldRoutes (s : State) (r : Reg) (v : Word) : (s.setReg r v).oldRoutes = s.oldRoutes := by unfold State.setReg; split <;> rfl
@[simp] theorem State.setReg_etmRun (s : State) (r : Reg) (v : Word) : (s.setReg r v).etmRun = s.etmRun := by unfold State.setReg; split <;> rfl
@[simp] theorem State.setReg_pins (s : State) (r : Reg) (v : Word) : (s.setReg r v).pins = s.pins := by unfold State.setReg; split <;> rfl
@[simp] theorem State.setReg_ahbErrors (s : State) (r : Reg) (v : Word) : (s.setReg r v).ahbErrors = s.ahbErrors := by unfold State.setReg; split <;> rfl
@[simp] theorem State.setReg_itcmErrors (s : State) (r : Reg) (v : Word) : (s.setReg r v).itcmErrors = s.itcmErrors := by unfold State.setReg; split <;> rfl
@[simp] theorem State.setReg_dtcmErrors (s : State) (r : Reg) (v : Word) : (s.setReg r v).dtcmErrors = s.dtcmErrors := by unfold State.setReg; split <;> rfl
@[simp] theorem State.setReg_dmaOut (s : State) (r : Reg) (v : Word) : (s.setReg r v).dmaOut = s.dmaOut := by unfold State.setReg; split <;> rfl
@[simp] theorem State.setReg_dbgOut (s : State) (r : Reg) (v : Word) : (s.setReg r v).dbgOut = s.dbgOut := by unfold State.setReg; split <;> rfl
@[simp] theorem State.setReg_params (s : State) (r : Reg) (v : Word) : (s.setReg r v).params = s.params := by unfold State.setReg; split <;> rfl
@[simp] theorem State.setReg_free (s : State) (r : Reg) (v : Word) : (s.setReg r v).free = s.free := by unfold State.setReg; split <;> rfl
@[simp] theorem State.setReg_agenda (s : State) (r : Reg) (v : Word) : (s.setReg r v).agenda = s.agenda := by unfold State.setReg; split <;> rfl
@[simp] theorem State.setReg_inside (s : State) (r : Reg) (v : Word) : (s.setReg r v).inside = s.inside := by unfold State.setReg; split <;> rfl

/-! ### advance -/

@[simp] theorem State.advance_regs (s : State)  : (s.advance).regs = s.regs := rfl
@[simp] theorem State.advance_pc (s : State)  : (s.advance).pc = s.pc + BitVec.ofNat 32 s.instrLen := rfl
@[simp] theorem State.advance_cpsr (s : State)  : (s.advance).cpsr = s.cpsr := rfl
@[simp] theorem State.advance_spsrs (s : State)  : (s.advance).spsrs = s.spsrs := rfl
@[simp] theorem State.advance_unrecoverable (s : State)  : (s.advance).unrecoverable = s.unrecoverable := rfl
@[simp] theorem State.advance_ctl (s : State)  : (s.advance).ctl = s.ctl := rfl
@[simp] theorem State.advance_cfg (s : State)  : (s.advance).cfg = s.cfg := rfl
@[simp] theorem State.advance_procId (s : State)  : (s.advance).procId = s.procId := rfl
@[simp] theorem State.advance_procIdWrites (s : State)  : (s.advance).procIdWrites = s.procIdWrites := rfl
@[simp] theorem State.advance_etmHeld (s : State)  : (s.advance).etmHeld = s.etmHeld := rfl
@[simp] theorem State.advance_dcc (s : State)  : (s.advance).dcc = s.dcc := rfl
@[simp] theorem State.advance_dbg (s : State)  : (s.advance).dbg = s.dbg := rfl
@[simp] theorem State.advance_standby (s : State)  : (s.advance).standby = s.standby := rfl
@[simp] theorem State.advance_itcm (s : State)  : (s.advance).itcm = s.itcm := rfl
@[simp] theorem State.advance_dtcm (s : State)  : (s.advance).dtcm = s.dtcm := rfl
@[simp] theorem State.advance_ahb (s : State)  : (s.advance).ahb = s.ahb := rfl
@[simp] theorem State.advance_itcmWB (s : State)  : (s.advance).itcmWB = s.itcmWB := rfl
@[simp] theorem State.advance_dtcmWB (s : State)  : (s.advance).dtcmWB = s.dtcmWB := rfl
@[simp] theorem State.advance_ahbWB (s : State)  : (s.advance).ahbWB = s.ahbWB := rfl
@[simp] theorem State.advance_ipb (s : State)  : (s.advance).ipb = s.ipb := rfl
@[simp] theorem State.advance_ipbNext (s : State)  : (s.advance).ipbNext = s.ipbNext := rfl
@[simp] theorem State.advance_pipe (s : State)  : (s.advance).pipe = s.pipe := rfl
@[simp] theorem State.advance_nonseq (s : State)  : (s.advance).nonseq = s.nonseq := rfl
@[simp] theorem State.advance_pastTop (s : State)  : (s.advance).pastTop = decide (2 ^ 32 ≤ s.pc.toNat + s.instrLen) := rfl
@[simp] theorem State.advance_bankHazard (s : State)  : (s.advance).bankHazard = false := rfl
@[simp] theorem State.advance_oldRoutes (s : State)  : (s.advance).oldRoutes = s.oldRoutes := rfl
@[simp] theorem State.advance_etmRun (s : State)  : (s.advance).etmRun = s.etmRun := rfl
@[simp] theorem State.advance_pins (s : State)  : (s.advance).pins = s.pins := rfl
@[simp] theorem State.advance_ahbErrors (s : State)  : (s.advance).ahbErrors = s.ahbErrors := rfl
@[simp] theorem State.advance_itcmErrors (s : State)  : (s.advance).itcmErrors = s.itcmErrors := rfl
@[simp] theorem State.advance_dtcmErrors (s : State)  : (s.advance).dtcmErrors = s.dtcmErrors := rfl
@[simp] theorem State.advance_dmaOut (s : State)  : (s.advance).dmaOut = s.dmaOut := rfl
@[simp] theorem State.advance_dbgOut (s : State)  : (s.advance).dbgOut = s.dbgOut := rfl
@[simp] theorem State.advance_params (s : State)  : (s.advance).params = s.params := rfl
@[simp] theorem State.advance_free (s : State)  : (s.advance).free = s.free := rfl
@[simp] theorem State.advance_agenda (s : State)  : (s.advance).agenda = s.agenda := rfl
@[simp] theorem State.advance_inside (s : State)  : (s.advance).inside = s.inside := rfl

/-! ### branchTo -/

@[simp] theorem State.branchTo_regs (s : State) (a : Word) : (s.branchTo a).regs = s.regs := rfl
@[simp] theorem State.branchTo_pc (s : State) (a : Word) : (s.branchTo a).pc = a := rfl
@[simp] theorem State.branchTo_cpsr (s : State) (a : Word) : (s.branchTo a).cpsr = s.cpsr := rfl
@[simp] theorem State.branchTo_spsrs (s : State) (a : Word) : (s.branchTo a).spsrs = s.spsrs := rfl
@[simp] theorem State.branchTo_unrecoverable (s : State) (a : Word) : (s.branchTo a).unrecoverable = s.unrecoverable := rfl
@[simp] theorem State.branchTo_ctl (s : State) (a : Word) : (s.branchTo a).ctl = s.ctl := rfl
@[simp] theorem State.branchTo_cfg (s : State) (a : Word) : (s.branchTo a).cfg = s.cfg := rfl
@[simp] theorem State.branchTo_procId (s : State) (a : Word) : (s.branchTo a).procId = s.procId := rfl
@[simp] theorem State.branchTo_procIdWrites (s : State) (a : Word) : (s.branchTo a).procIdWrites = s.procIdWrites := rfl
@[simp] theorem State.branchTo_etmHeld (s : State) (a : Word) : (s.branchTo a).etmHeld = s.etmHeld := rfl
@[simp] theorem State.branchTo_dcc (s : State) (a : Word) : (s.branchTo a).dcc = s.dcc := rfl
@[simp] theorem State.branchTo_dbg (s : State) (a : Word) : (s.branchTo a).dbg = s.dbg := rfl
@[simp] theorem State.branchTo_standby (s : State) (a : Word) : (s.branchTo a).standby = s.standby := rfl
@[simp] theorem State.branchTo_itcm (s : State) (a : Word) : (s.branchTo a).itcm = s.itcm := rfl
@[simp] theorem State.branchTo_dtcm (s : State) (a : Word) : (s.branchTo a).dtcm = s.dtcm := rfl
@[simp] theorem State.branchTo_ahb (s : State) (a : Word) : (s.branchTo a).ahb = s.ahb := rfl
@[simp] theorem State.branchTo_itcmWB (s : State) (a : Word) : (s.branchTo a).itcmWB = s.itcmWB := rfl
@[simp] theorem State.branchTo_dtcmWB (s : State) (a : Word) : (s.branchTo a).dtcmWB = s.dtcmWB := rfl
@[simp] theorem State.branchTo_ahbWB (s : State) (a : Word) : (s.branchTo a).ahbWB = s.ahbWB := rfl
@[simp] theorem State.branchTo_ipb (s : State) (a : Word) : (s.branchTo a).ipb = s.ipb := rfl
@[simp] theorem State.branchTo_ipbNext (s : State) (a : Word) : (s.branchTo a).ipbNext = s.ipbNext := rfl
@[simp] theorem State.branchTo_pipe (s : State) (a : Word) : (s.branchTo a).pipe = afterTransfer s.pipe := rfl
@[simp] theorem State.branchTo_nonseq (s : State) (a : Word) : (s.branchTo a).nonseq = true := rfl
@[simp] theorem State.branchTo_pastTop (s : State) (a : Word) : (s.branchTo a).pastTop = false := rfl
@[simp] theorem State.branchTo_bankHazard (s : State) (a : Word) : (s.branchTo a).bankHazard = false := rfl
@[simp] theorem State.branchTo_oldRoutes (s : State) (a : Word) : (s.branchTo a).oldRoutes = [] := rfl
@[simp] theorem State.branchTo_etmRun (s : State) (a : Word) : (s.branchTo a).etmRun = s.etmRun := rfl
@[simp] theorem State.branchTo_pins (s : State) (a : Word) : (s.branchTo a).pins = s.pins := rfl
@[simp] theorem State.branchTo_ahbErrors (s : State) (a : Word) : (s.branchTo a).ahbErrors = s.ahbErrors := rfl
@[simp] theorem State.branchTo_itcmErrors (s : State) (a : Word) : (s.branchTo a).itcmErrors = s.itcmErrors := rfl
@[simp] theorem State.branchTo_dtcmErrors (s : State) (a : Word) : (s.branchTo a).dtcmErrors = s.dtcmErrors := rfl
@[simp] theorem State.branchTo_dmaOut (s : State) (a : Word) : (s.branchTo a).dmaOut = s.dmaOut := rfl
@[simp] theorem State.branchTo_dbgOut (s : State) (a : Word) : (s.branchTo a).dbgOut = s.dbgOut := rfl
@[simp] theorem State.branchTo_params (s : State) (a : Word) : (s.branchTo a).params = s.params := rfl
@[simp] theorem State.branchTo_free (s : State) (a : Word) : (s.branchTo a).free = s.free := rfl
@[simp] theorem State.branchTo_agenda (s : State) (a : Word) : (s.branchTo a).agenda = s.agenda := rfl
@[simp] theorem State.branchTo_inside (s : State) (a : Word) : (s.branchTo a).inside = s.inside := rfl

/-! ### setT -/

@[simp] theorem State.setT_regs (s : State) (t : Bool) : (s.setT t).regs = s.regs := rfl
@[simp] theorem State.setT_pc (s : State) (t : Bool) : (s.setT t).pc = s.pc := rfl
@[simp] theorem State.setT_cpsr (s : State) (t : Bool) : (s.setT t).cpsr = { s.cpsr with t := t } := rfl
@[simp] theorem State.setT_spsrs (s : State) (t : Bool) : (s.setT t).spsrs = s.spsrs := rfl
@[simp] theorem State.setT_unrecoverable (s : State) (t : Bool) : (s.setT t).unrecoverable = s.unrecoverable := rfl
@[simp] theorem State.setT_ctl (s : State) (t : Bool) : (s.setT t).ctl = s.ctl := rfl
@[simp] theorem State.setT_cfg (s : State) (t : Bool) : (s.setT t).cfg = s.cfg := rfl
@[simp] theorem State.setT_procId (s : State) (t : Bool) : (s.setT t).procId = s.procId := rfl
@[simp] theorem State.setT_procIdWrites (s : State) (t : Bool) : (s.setT t).procIdWrites = s.procIdWrites := rfl
@[simp] theorem State.setT_etmHeld (s : State) (t : Bool) : (s.setT t).etmHeld = s.etmHeld := rfl
@[simp] theorem State.setT_dcc (s : State) (t : Bool) : (s.setT t).dcc = s.dcc := rfl
@[simp] theorem State.setT_dbg (s : State) (t : Bool) : (s.setT t).dbg = s.dbg := rfl
@[simp] theorem State.setT_standby (s : State) (t : Bool) : (s.setT t).standby = s.standby := rfl
@[simp] theorem State.setT_itcm (s : State) (t : Bool) : (s.setT t).itcm = s.itcm := rfl
@[simp] theorem State.setT_dtcm (s : State) (t : Bool) : (s.setT t).dtcm = s.dtcm := rfl
@[simp] theorem State.setT_ahb (s : State) (t : Bool) : (s.setT t).ahb = s.ahb := rfl
@[simp] theorem State.setT_itcmWB (s : State) (t : Bool) : (s.setT t).itcmWB = s.itcmWB := rfl
@[simp] theorem State.setT_dtcmWB (s : State) (t : Bool) : (s.setT t).dtcmWB = s.dtcmWB := rfl
@[simp] theorem State.setT_ahbWB (s : State) (t : Bool) : (s.setT t).ahbWB = s.ahbWB := rfl
@[simp] theorem State.setT_ipb (s : State) (t : Bool) : (s.setT t).ipb = s.ipb := rfl
@[simp] theorem State.setT_ipbNext (s : State) (t : Bool) : (s.setT t).ipbNext = s.ipbNext := rfl
@[simp] theorem State.setT_pipe (s : State) (t : Bool) : (s.setT t).pipe = s.pipe := rfl
@[simp] theorem State.setT_nonseq (s : State) (t : Bool) : (s.setT t).nonseq = s.nonseq := rfl
@[simp] theorem State.setT_pastTop (s : State) (t : Bool) : (s.setT t).pastTop = s.pastTop := rfl
@[simp] theorem State.setT_bankHazard (s : State) (t : Bool) : (s.setT t).bankHazard = s.bankHazard := rfl
@[simp] theorem State.setT_oldRoutes (s : State) (t : Bool) : (s.setT t).oldRoutes = s.oldRoutes := rfl
@[simp] theorem State.setT_etmRun (s : State) (t : Bool) : (s.setT t).etmRun = s.etmRun := rfl
@[simp] theorem State.setT_pins (s : State) (t : Bool) : (s.setT t).pins = s.pins := rfl
@[simp] theorem State.setT_ahbErrors (s : State) (t : Bool) : (s.setT t).ahbErrors = s.ahbErrors := rfl
@[simp] theorem State.setT_itcmErrors (s : State) (t : Bool) : (s.setT t).itcmErrors = s.itcmErrors := rfl
@[simp] theorem State.setT_dtcmErrors (s : State) (t : Bool) : (s.setT t).dtcmErrors = s.dtcmErrors := rfl
@[simp] theorem State.setT_dmaOut (s : State) (t : Bool) : (s.setT t).dmaOut = s.dmaOut := rfl
@[simp] theorem State.setT_dbgOut (s : State) (t : Bool) : (s.setT t).dbgOut = s.dbgOut := rfl
@[simp] theorem State.setT_params (s : State) (t : Bool) : (s.setT t).params = s.params := rfl
@[simp] theorem State.setT_free (s : State) (t : Bool) : (s.setT t).free = s.free := rfl
@[simp] theorem State.setT_agenda (s : State) (t : Bool) : (s.setT t).agenda = s.agenda := rfl
@[simp] theorem State.setT_inside (s : State) (t : Bool) : (s.setT t).inside = s.inside := rfl

/-! ### putCpsr -/

@[simp] theorem State.putCpsr_regs (s : State) (p : Psr) : (s.putCpsr p).regs = s.regs := rfl
@[simp] theorem State.putCpsr_pc (s : State) (p : Psr) : (s.putCpsr p).pc = s.pc := rfl
@[simp] theorem State.putCpsr_cpsr (s : State) (p : Psr) : (s.putCpsr p).cpsr = p := rfl
@[simp] theorem State.putCpsr_spsrs (s : State) (p : Psr) : (s.putCpsr p).spsrs = s.spsrs := rfl
@[simp] theorem State.putCpsr_unrecoverable (s : State) (p : Psr) : (s.putCpsr p).unrecoverable = (s.unrecoverable || !legalMode p.m) := rfl
@[simp] theorem State.putCpsr_ctl (s : State) (p : Psr) : (s.putCpsr p).ctl = s.ctl := rfl
@[simp] theorem State.putCpsr_cfg (s : State) (p : Psr) : (s.putCpsr p).cfg = s.cfg := rfl
@[simp] theorem State.putCpsr_procId (s : State) (p : Psr) : (s.putCpsr p).procId = s.procId := rfl
@[simp] theorem State.putCpsr_procIdWrites (s : State) (p : Psr) : (s.putCpsr p).procIdWrites = s.procIdWrites := rfl
@[simp] theorem State.putCpsr_etmHeld (s : State) (p : Psr) : (s.putCpsr p).etmHeld = s.etmHeld := rfl
@[simp] theorem State.putCpsr_dcc (s : State) (p : Psr) : (s.putCpsr p).dcc = s.dcc := rfl
@[simp] theorem State.putCpsr_dbg (s : State) (p : Psr) : (s.putCpsr p).dbg = s.dbg := rfl
@[simp] theorem State.putCpsr_standby (s : State) (p : Psr) : (s.putCpsr p).standby = s.standby := rfl
@[simp] theorem State.putCpsr_itcm (s : State) (p : Psr) : (s.putCpsr p).itcm = s.itcm := rfl
@[simp] theorem State.putCpsr_dtcm (s : State) (p : Psr) : (s.putCpsr p).dtcm = s.dtcm := rfl
@[simp] theorem State.putCpsr_ahb (s : State) (p : Psr) : (s.putCpsr p).ahb = s.ahb := rfl
@[simp] theorem State.putCpsr_itcmWB (s : State) (p : Psr) : (s.putCpsr p).itcmWB = s.itcmWB := rfl
@[simp] theorem State.putCpsr_dtcmWB (s : State) (p : Psr) : (s.putCpsr p).dtcmWB = s.dtcmWB := rfl
@[simp] theorem State.putCpsr_ahbWB (s : State) (p : Psr) : (s.putCpsr p).ahbWB = s.ahbWB := rfl
@[simp] theorem State.putCpsr_ipb (s : State) (p : Psr) : (s.putCpsr p).ipb = s.ipb := rfl
@[simp] theorem State.putCpsr_ipbNext (s : State) (p : Psr) : (s.putCpsr p).ipbNext = s.ipbNext := rfl
@[simp] theorem State.putCpsr_pipe (s : State) (p : Psr) : (s.putCpsr p).pipe = s.pipe := rfl
@[simp] theorem State.putCpsr_nonseq (s : State) (p : Psr) : (s.putCpsr p).nonseq = s.nonseq := rfl
@[simp] theorem State.putCpsr_pastTop (s : State) (p : Psr) : (s.putCpsr p).pastTop = s.pastTop := rfl
@[simp] theorem State.putCpsr_bankHazard (s : State) (p : Psr) : (s.putCpsr p).bankHazard = s.bankHazard := rfl
@[simp] theorem State.putCpsr_oldRoutes (s : State) (p : Psr) : (s.putCpsr p).oldRoutes = s.oldRoutes := rfl
@[simp] theorem State.putCpsr_etmRun (s : State) (p : Psr) : (s.putCpsr p).etmRun = s.etmRun := rfl
@[simp] theorem State.putCpsr_pins (s : State) (p : Psr) : (s.putCpsr p).pins = s.pins := rfl
@[simp] theorem State.putCpsr_ahbErrors (s : State) (p : Psr) : (s.putCpsr p).ahbErrors = s.ahbErrors := rfl
@[simp] theorem State.putCpsr_itcmErrors (s : State) (p : Psr) : (s.putCpsr p).itcmErrors = s.itcmErrors := rfl
@[simp] theorem State.putCpsr_dtcmErrors (s : State) (p : Psr) : (s.putCpsr p).dtcmErrors = s.dtcmErrors := rfl
@[simp] theorem State.putCpsr_dmaOut (s : State) (p : Psr) : (s.putCpsr p).dmaOut = s.dmaOut := rfl
@[simp] theorem State.putCpsr_dbgOut (s : State) (p : Psr) : (s.putCpsr p).dbgOut = s.dbgOut := rfl
@[simp] theorem State.putCpsr_params (s : State) (p : Psr) : (s.putCpsr p).params = s.params := rfl
@[simp] theorem State.putCpsr_free (s : State) (p : Psr) : (s.putCpsr p).free = s.free := rfl
@[simp] theorem State.putCpsr_agenda (s : State) (p : Psr) : (s.putCpsr p).agenda = s.agenda := rfl
@[simp] theorem State.putCpsr_inside (s : State) (p : Psr) : (s.putCpsr p).inside = s.inside := rfl

/-! ### setSpsr -/

@[simp] theorem State.setSpsr_regs (s : State) (e : ExcMode) (p : Psr) : (s.setSpsr e p).regs = s.regs := by cases e <;> rfl
@[simp] theorem State.setSpsr_pc (s : State) (e : ExcMode) (p : Psr) : (s.setSpsr e p).pc = s.pc := by cases e <;> rfl
@[simp] theorem State.setSpsr_cpsr (s : State) (e : ExcMode) (p : Psr) : (s.setSpsr e p).cpsr = s.cpsr := by cases e <;> rfl
@[simp] theorem State.setSpsr_unrecoverable (s : State) (e : ExcMode) (p : Psr) : (s.setSpsr e p).unrecoverable = s.unrecoverable := by cases e <;> rfl
@[simp] theorem State.setSpsr_ctl (s : State) (e : ExcMode) (p : Psr) : (s.setSpsr e p).ctl = s.ctl := by cases e <;> rfl
@[simp] theorem State.setSpsr_cfg (s : State) (e : ExcMode) (p : Psr) : (s.setSpsr e p).cfg = s.cfg := by cases e <;> rfl
@[simp] theorem State.setSpsr_procId (s : State) (e : ExcMode) (p : Psr) : (s.setSpsr e p).procId = s.procId := by cases e <;> rfl
@[simp] theorem State.setSpsr_procIdWrites (s : State) (e : ExcMode) (p : Psr) : (s.setSpsr e p).procIdWrites = s.procIdWrites := by cases e <;> rfl
@[simp] theorem State.setSpsr_etmHeld (s : State) (e : ExcMode) (p : Psr) : (s.setSpsr e p).etmHeld = s.etmHeld := by cases e <;> rfl
@[simp] theorem State.setSpsr_dcc (s : State) (e : ExcMode) (p : Psr) : (s.setSpsr e p).dcc = s.dcc := by cases e <;> rfl
@[simp] theorem State.setSpsr_dbg (s : State) (e : ExcMode) (p : Psr) : (s.setSpsr e p).dbg = s.dbg := by cases e <;> rfl
@[simp] theorem State.setSpsr_standby (s : State) (e : ExcMode) (p : Psr) : (s.setSpsr e p).standby = s.standby := by cases e <;> rfl
@[simp] theorem State.setSpsr_itcm (s : State) (e : ExcMode) (p : Psr) : (s.setSpsr e p).itcm = s.itcm := by cases e <;> rfl
@[simp] theorem State.setSpsr_dtcm (s : State) (e : ExcMode) (p : Psr) : (s.setSpsr e p).dtcm = s.dtcm := by cases e <;> rfl
@[simp] theorem State.setSpsr_ahb (s : State) (e : ExcMode) (p : Psr) : (s.setSpsr e p).ahb = s.ahb := by cases e <;> rfl
@[simp] theorem State.setSpsr_itcmWB (s : State) (e : ExcMode) (p : Psr) : (s.setSpsr e p).itcmWB = s.itcmWB := by cases e <;> rfl
@[simp] theorem State.setSpsr_dtcmWB (s : State) (e : ExcMode) (p : Psr) : (s.setSpsr e p).dtcmWB = s.dtcmWB := by cases e <;> rfl
@[simp] theorem State.setSpsr_ahbWB (s : State) (e : ExcMode) (p : Psr) : (s.setSpsr e p).ahbWB = s.ahbWB := by cases e <;> rfl
@[simp] theorem State.setSpsr_ipb (s : State) (e : ExcMode) (p : Psr) : (s.setSpsr e p).ipb = s.ipb := by cases e <;> rfl
@[simp] theorem State.setSpsr_ipbNext (s : State) (e : ExcMode) (p : Psr) : (s.setSpsr e p).ipbNext = s.ipbNext := by cases e <;> rfl
@[simp] theorem State.setSpsr_pipe (s : State) (e : ExcMode) (p : Psr) : (s.setSpsr e p).pipe = s.pipe := by cases e <;> rfl
@[simp] theorem State.setSpsr_nonseq (s : State) (e : ExcMode) (p : Psr) : (s.setSpsr e p).nonseq = s.nonseq := by cases e <;> rfl
@[simp] theorem State.setSpsr_pastTop (s : State) (e : ExcMode) (p : Psr) : (s.setSpsr e p).pastTop = s.pastTop := by cases e <;> rfl
@[simp] theorem State.setSpsr_bankHazard (s : State) (e : ExcMode) (p : Psr) : (s.setSpsr e p).bankHazard = s.bankHazard := by cases e <;> rfl
@[simp] theorem State.setSpsr_oldRoutes (s : State) (e : ExcMode) (p : Psr) : (s.setSpsr e p).oldRoutes = s.oldRoutes := by cases e <;> rfl
@[simp] theorem State.setSpsr_etmRun (s : State) (e : ExcMode) (p : Psr) : (s.setSpsr e p).etmRun = s.etmRun := by cases e <;> rfl
@[simp] theorem State.setSpsr_pins (s : State) (e : ExcMode) (p : Psr) : (s.setSpsr e p).pins = s.pins := by cases e <;> rfl
@[simp] theorem State.setSpsr_ahbErrors (s : State) (e : ExcMode) (p : Psr) : (s.setSpsr e p).ahbErrors = s.ahbErrors := by cases e <;> rfl
@[simp] theorem State.setSpsr_itcmErrors (s : State) (e : ExcMode) (p : Psr) : (s.setSpsr e p).itcmErrors = s.itcmErrors := by cases e <;> rfl
@[simp] theorem State.setSpsr_dtcmErrors (s : State) (e : ExcMode) (p : Psr) : (s.setSpsr e p).dtcmErrors = s.dtcmErrors := by cases e <;> rfl
@[simp] theorem State.setSpsr_dmaOut (s : State) (e : ExcMode) (p : Psr) : (s.setSpsr e p).dmaOut = s.dmaOut := by cases e <;> rfl
@[simp] theorem State.setSpsr_dbgOut (s : State) (e : ExcMode) (p : Psr) : (s.setSpsr e p).dbgOut = s.dbgOut := by cases e <;> rfl
@[simp] theorem State.setSpsr_params (s : State) (e : ExcMode) (p : Psr) : (s.setSpsr e p).params = s.params := by cases e <;> rfl
@[simp] theorem State.setSpsr_free (s : State) (e : ExcMode) (p : Psr) : (s.setSpsr e p).free = s.free := by cases e <;> rfl
@[simp] theorem State.setSpsr_agenda (s : State) (e : ExcMode) (p : Psr) : (s.setSpsr e p).agenda = s.agenda := by cases e <;> rfl
@[simp] theorem State.setSpsr_inside (s : State) (e : ExcMode) (p : Psr) : (s.setSpsr e p).inside = s.inside := by cases e <;> rfl

/-! ### freePhys -/

@[simp] theorem State.freePhys_pc (s : State) (p : PhysReg) : (s.freePhys p).pc = s.pc := rfl
@[simp] theorem State.freePhys_cpsr (s : State) (p : PhysReg) : (s.freePhys p).cpsr = s.cpsr := rfl
@[simp] theorem State.freePhys_spsrs (s : State) (p : PhysReg) : (s.freePhys p).spsrs = s.spsrs := rfl
@[simp] theorem State.freePhys_unrecoverable (s : State) (p : PhysReg) : (s.freePhys p).unrecoverable = s.unrecoverable := rfl
@[simp] theorem State.freePhys_ctl (s : State) (p : PhysReg) : (s.freePhys p).ctl = s.ctl := rfl
@[simp] theorem State.freePhys_cfg (s : State) (p : PhysReg) : (s.freePhys p).cfg = s.cfg := rfl
@[simp] theorem State.freePhys_procId (s : State) (p : PhysReg) : (s.freePhys p).procId = s.procId := rfl
@[simp] theorem State.freePhys_procIdWrites (s : State) (p : PhysReg) : (s.freePhys p).procIdWrites = s.procIdWrites := rfl
@[simp] theorem State.freePhys_etmHeld (s : State) (p : PhysReg) : (s.freePhys p).etmHeld = s.etmHeld := rfl
@[simp] theorem State.freePhys_dcc (s : State) (p : PhysReg) : (s.freePhys p).dcc = s.dcc := rfl
@[simp] theorem State.freePhys_dbg (s : State) (p : PhysReg) : (s.freePhys p).dbg = s.dbg := rfl
@[simp] theorem State.freePhys_standby (s : State) (p : PhysReg) : (s.freePhys p).standby = s.standby := rfl
@[simp] theorem State.freePhys_itcm (s : State) (p : PhysReg) : (s.freePhys p).itcm = s.itcm := rfl
@[simp] theorem State.freePhys_dtcm (s : State) (p : PhysReg) : (s.freePhys p).dtcm = s.dtcm := rfl
@[simp] theorem State.freePhys_ahb (s : State) (p : PhysReg) : (s.freePhys p).ahb = s.ahb := rfl
@[simp] theorem State.freePhys_itcmWB (s : State) (p : PhysReg) : (s.freePhys p).itcmWB = s.itcmWB := rfl
@[simp] theorem State.freePhys_dtcmWB (s : State) (p : PhysReg) : (s.freePhys p).dtcmWB = s.dtcmWB := rfl
@[simp] theorem State.freePhys_ahbWB (s : State) (p : PhysReg) : (s.freePhys p).ahbWB = s.ahbWB := rfl
@[simp] theorem State.freePhys_ipb (s : State) (p : PhysReg) : (s.freePhys p).ipb = s.ipb := rfl
@[simp] theorem State.freePhys_ipbNext (s : State) (p : PhysReg) : (s.freePhys p).ipbNext = s.ipbNext := rfl
@[simp] theorem State.freePhys_pipe (s : State) (p : PhysReg) : (s.freePhys p).pipe = s.pipe := rfl
@[simp] theorem State.freePhys_nonseq (s : State) (p : PhysReg) : (s.freePhys p).nonseq = s.nonseq := rfl
@[simp] theorem State.freePhys_pastTop (s : State) (p : PhysReg) : (s.freePhys p).pastTop = s.pastTop := rfl
@[simp] theorem State.freePhys_bankHazard (s : State) (p : PhysReg) : (s.freePhys p).bankHazard = s.bankHazard := rfl
@[simp] theorem State.freePhys_oldRoutes (s : State) (p : PhysReg) : (s.freePhys p).oldRoutes = s.oldRoutes := rfl
@[simp] theorem State.freePhys_etmRun (s : State) (p : PhysReg) : (s.freePhys p).etmRun = s.etmRun := rfl
@[simp] theorem State.freePhys_pins (s : State) (p : PhysReg) : (s.freePhys p).pins = s.pins := rfl
@[simp] theorem State.freePhys_ahbErrors (s : State) (p : PhysReg) : (s.freePhys p).ahbErrors = s.ahbErrors := rfl
@[simp] theorem State.freePhys_itcmErrors (s : State) (p : PhysReg) : (s.freePhys p).itcmErrors = s.itcmErrors := rfl
@[simp] theorem State.freePhys_dtcmErrors (s : State) (p : PhysReg) : (s.freePhys p).dtcmErrors = s.dtcmErrors := rfl
@[simp] theorem State.freePhys_dmaOut (s : State) (p : PhysReg) : (s.freePhys p).dmaOut = s.dmaOut := rfl
@[simp] theorem State.freePhys_dbgOut (s : State) (p : PhysReg) : (s.freePhys p).dbgOut = s.dbgOut := rfl
@[simp] theorem State.freePhys_params (s : State) (p : PhysReg) : (s.freePhys p).params = s.params := rfl
@[simp] theorem State.freePhys_free (s : State) (p : PhysReg) : (s.freePhys p).free = s.free + 1 := rfl
@[simp] theorem State.freePhys_agenda (s : State) (p : PhysReg) : (s.freePhys p).agenda = s.agenda := rfl
@[simp] theorem State.freePhys_inside (s : State) (p : PhysReg) : (s.freePhys p).inside = s.inside := rfl

/-! ### setRam -/

@[simp] theorem State.setRam_regs (s : State) (t : Tcm) (m : Memory) : (s.setRam t m).regs = s.regs := by cases t <;> rfl
@[simp] theorem State.setRam_pc (s : State) (t : Tcm) (m : Memory) : (s.setRam t m).pc = s.pc := by cases t <;> rfl
@[simp] theorem State.setRam_cpsr (s : State) (t : Tcm) (m : Memory) : (s.setRam t m).cpsr = s.cpsr := by cases t <;> rfl
@[simp] theorem State.setRam_spsrs (s : State) (t : Tcm) (m : Memory) : (s.setRam t m).spsrs = s.spsrs := by cases t <;> rfl
@[simp] theorem State.setRam_unrecoverable (s : State) (t : Tcm) (m : Memory) : (s.setRam t m).unrecoverable = s.unrecoverable := by cases t <;> rfl
@[simp] theorem State.setRam_ctl (s : State) (t : Tcm) (m : Memory) : (s.setRam t m).ctl = s.ctl := by cases t <;> rfl
@[simp] theorem State.setRam_cfg (s : State) (t : Tcm) (m : Memory) : (s.setRam t m).cfg = s.cfg := by cases t <;> rfl
@[simp] theorem State.setRam_procId (s : State) (t : Tcm) (m : Memory) : (s.setRam t m).procId = s.procId := by cases t <;> rfl
@[simp] theorem State.setRam_procIdWrites (s : State) (t : Tcm) (m : Memory) : (s.setRam t m).procIdWrites = s.procIdWrites := by cases t <;> rfl
@[simp] theorem State.setRam_etmHeld (s : State) (t : Tcm) (m : Memory) : (s.setRam t m).etmHeld = s.etmHeld := by cases t <;> rfl
@[simp] theorem State.setRam_dcc (s : State) (t : Tcm) (m : Memory) : (s.setRam t m).dcc = s.dcc := by cases t <;> rfl
@[simp] theorem State.setRam_dbg (s : State) (t : Tcm) (m : Memory) : (s.setRam t m).dbg = s.dbg := by cases t <;> rfl
@[simp] theorem State.setRam_standby (s : State) (t : Tcm) (m : Memory) : (s.setRam t m).standby = s.standby := by cases t <;> rfl
@[simp] theorem State.setRam_ahb (s : State) (t : Tcm) (m : Memory) : (s.setRam t m).ahb = s.ahb := by cases t <;> rfl
@[simp] theorem State.setRam_itcmWB (s : State) (t : Tcm) (m : Memory) : (s.setRam t m).itcmWB = s.itcmWB := by cases t <;> rfl
@[simp] theorem State.setRam_dtcmWB (s : State) (t : Tcm) (m : Memory) : (s.setRam t m).dtcmWB = s.dtcmWB := by cases t <;> rfl
@[simp] theorem State.setRam_ahbWB (s : State) (t : Tcm) (m : Memory) : (s.setRam t m).ahbWB = s.ahbWB := by cases t <;> rfl
@[simp] theorem State.setRam_ipb (s : State) (t : Tcm) (m : Memory) : (s.setRam t m).ipb = s.ipb := by cases t <;> rfl
@[simp] theorem State.setRam_ipbNext (s : State) (t : Tcm) (m : Memory) : (s.setRam t m).ipbNext = s.ipbNext := by cases t <;> rfl
@[simp] theorem State.setRam_pipe (s : State) (t : Tcm) (m : Memory) : (s.setRam t m).pipe = s.pipe := by cases t <;> rfl
@[simp] theorem State.setRam_nonseq (s : State) (t : Tcm) (m : Memory) : (s.setRam t m).nonseq = s.nonseq := by cases t <;> rfl
@[simp] theorem State.setRam_pastTop (s : State) (t : Tcm) (m : Memory) : (s.setRam t m).pastTop = s.pastTop := by cases t <;> rfl
@[simp] theorem State.setRam_bankHazard (s : State) (t : Tcm) (m : Memory) : (s.setRam t m).bankHazard = s.bankHazard := by cases t <;> rfl
@[simp] theorem State.setRam_oldRoutes (s : State) (t : Tcm) (m : Memory) : (s.setRam t m).oldRoutes = s.oldRoutes := by cases t <;> rfl
@[simp] theorem State.setRam_etmRun (s : State) (t : Tcm) (m : Memory) : (s.setRam t m).etmRun = s.etmRun := by cases t <;> rfl
@[simp] theorem State.setRam_pins (s : State) (t : Tcm) (m : Memory) : (s.setRam t m).pins = s.pins := by cases t <;> rfl
@[simp] theorem State.setRam_ahbErrors (s : State) (t : Tcm) (m : Memory) : (s.setRam t m).ahbErrors = s.ahbErrors := by cases t <;> rfl
@[simp] theorem State.setRam_itcmErrors (s : State) (t : Tcm) (m : Memory) : (s.setRam t m).itcmErrors = s.itcmErrors := by cases t <;> rfl
@[simp] theorem State.setRam_dtcmErrors (s : State) (t : Tcm) (m : Memory) : (s.setRam t m).dtcmErrors = s.dtcmErrors := by cases t <;> rfl
@[simp] theorem State.setRam_dmaOut (s : State) (t : Tcm) (m : Memory) : (s.setRam t m).dmaOut = s.dmaOut := by cases t <;> rfl
@[simp] theorem State.setRam_dbgOut (s : State) (t : Tcm) (m : Memory) : (s.setRam t m).dbgOut = s.dbgOut := by cases t <;> rfl
@[simp] theorem State.setRam_params (s : State) (t : Tcm) (m : Memory) : (s.setRam t m).params = s.params := by cases t <;> rfl
@[simp] theorem State.setRam_free (s : State) (t : Tcm) (m : Memory) : (s.setRam t m).free = s.free := by cases t <;> rfl
@[simp] theorem State.setRam_agenda (s : State) (t : Tcm) (m : Memory) : (s.setRam t m).agenda = s.agenda := by cases t <;> rfl
@[simp] theorem State.setRam_inside (s : State) (t : Tcm) (m : Memory) : (s.setRam t m).inside = s.inside := by cases t <;> rfl

/-! ### setTcmWB -/

@[simp] theorem State.setTcmWB_regs (s : State) (t : Tcm) (l : List TcmEntry) : (s.setTcmWB t l).regs = s.regs := by cases t <;> rfl
@[simp] theorem State.setTcmWB_pc (s : State) (t : Tcm) (l : List TcmEntry) : (s.setTcmWB t l).pc = s.pc := by cases t <;> rfl
@[simp] theorem State.setTcmWB_cpsr (s : State) (t : Tcm) (l : List TcmEntry) : (s.setTcmWB t l).cpsr = s.cpsr := by cases t <;> rfl
@[simp] theorem State.setTcmWB_spsrs (s : State) (t : Tcm) (l : List TcmEntry) : (s.setTcmWB t l).spsrs = s.spsrs := by cases t <;> rfl
@[simp] theorem State.setTcmWB_unrecoverable (s : State) (t : Tcm) (l : List TcmEntry) : (s.setTcmWB t l).unrecoverable = s.unrecoverable := by cases t <;> rfl
@[simp] theorem State.setTcmWB_ctl (s : State) (t : Tcm) (l : List TcmEntry) : (s.setTcmWB t l).ctl = s.ctl := by cases t <;> rfl
@[simp] theorem State.setTcmWB_cfg (s : State) (t : Tcm) (l : List TcmEntry) : (s.setTcmWB t l).cfg = s.cfg := by cases t <;> rfl
@[simp] theorem State.setTcmWB_procId (s : State) (t : Tcm) (l : List TcmEntry) : (s.setTcmWB t l).procId = s.procId := by cases t <;> rfl
@[simp] theorem State.setTcmWB_procIdWrites (s : State) (t : Tcm) (l : List TcmEntry) : (s.setTcmWB t l).procIdWrites = s.procIdWrites := by cases t <;> rfl
@[simp] theorem State.setTcmWB_etmHeld (s : State) (t : Tcm) (l : List TcmEntry) : (s.setTcmWB t l).etmHeld = s.etmHeld := by cases t <;> rfl
@[simp] theorem State.setTcmWB_dcc (s : State) (t : Tcm) (l : List TcmEntry) : (s.setTcmWB t l).dcc = s.dcc := by cases t <;> rfl
@[simp] theorem State.setTcmWB_dbg (s : State) (t : Tcm) (l : List TcmEntry) : (s.setTcmWB t l).dbg = s.dbg := by cases t <;> rfl
@[simp] theorem State.setTcmWB_standby (s : State) (t : Tcm) (l : List TcmEntry) : (s.setTcmWB t l).standby = s.standby := by cases t <;> rfl
@[simp] theorem State.setTcmWB_itcm (s : State) (t : Tcm) (l : List TcmEntry) : (s.setTcmWB t l).itcm = s.itcm := by cases t <;> rfl
@[simp] theorem State.setTcmWB_dtcm (s : State) (t : Tcm) (l : List TcmEntry) : (s.setTcmWB t l).dtcm = s.dtcm := by cases t <;> rfl
@[simp] theorem State.setTcmWB_ahb (s : State) (t : Tcm) (l : List TcmEntry) : (s.setTcmWB t l).ahb = s.ahb := by cases t <;> rfl
@[simp] theorem State.setTcmWB_ahbWB (s : State) (t : Tcm) (l : List TcmEntry) : (s.setTcmWB t l).ahbWB = s.ahbWB := by cases t <;> rfl
@[simp] theorem State.setTcmWB_ipb (s : State) (t : Tcm) (l : List TcmEntry) : (s.setTcmWB t l).ipb = s.ipb := by cases t <;> rfl
@[simp] theorem State.setTcmWB_ipbNext (s : State) (t : Tcm) (l : List TcmEntry) : (s.setTcmWB t l).ipbNext = s.ipbNext := by cases t <;> rfl
@[simp] theorem State.setTcmWB_pipe (s : State) (t : Tcm) (l : List TcmEntry) : (s.setTcmWB t l).pipe = s.pipe := by cases t <;> rfl
@[simp] theorem State.setTcmWB_nonseq (s : State) (t : Tcm) (l : List TcmEntry) : (s.setTcmWB t l).nonseq = s.nonseq := by cases t <;> rfl
@[simp] theorem State.setTcmWB_pastTop (s : State) (t : Tcm) (l : List TcmEntry) : (s.setTcmWB t l).pastTop = s.pastTop := by cases t <;> rfl
@[simp] theorem State.setTcmWB_bankHazard (s : State) (t : Tcm) (l : List TcmEntry) : (s.setTcmWB t l).bankHazard = s.bankHazard := by cases t <;> rfl
@[simp] theorem State.setTcmWB_oldRoutes (s : State) (t : Tcm) (l : List TcmEntry) : (s.setTcmWB t l).oldRoutes = s.oldRoutes := by cases t <;> rfl
@[simp] theorem State.setTcmWB_etmRun (s : State) (t : Tcm) (l : List TcmEntry) : (s.setTcmWB t l).etmRun = s.etmRun := by cases t <;> rfl
@[simp] theorem State.setTcmWB_pins (s : State) (t : Tcm) (l : List TcmEntry) : (s.setTcmWB t l).pins = s.pins := by cases t <;> rfl
@[simp] theorem State.setTcmWB_ahbErrors (s : State) (t : Tcm) (l : List TcmEntry) : (s.setTcmWB t l).ahbErrors = s.ahbErrors := by cases t <;> rfl
@[simp] theorem State.setTcmWB_itcmErrors (s : State) (t : Tcm) (l : List TcmEntry) : (s.setTcmWB t l).itcmErrors = s.itcmErrors := by cases t <;> rfl
@[simp] theorem State.setTcmWB_dtcmErrors (s : State) (t : Tcm) (l : List TcmEntry) : (s.setTcmWB t l).dtcmErrors = s.dtcmErrors := by cases t <;> rfl
@[simp] theorem State.setTcmWB_dmaOut (s : State) (t : Tcm) (l : List TcmEntry) : (s.setTcmWB t l).dmaOut = s.dmaOut := by cases t <;> rfl
@[simp] theorem State.setTcmWB_dbgOut (s : State) (t : Tcm) (l : List TcmEntry) : (s.setTcmWB t l).dbgOut = s.dbgOut := by cases t <;> rfl
@[simp] theorem State.setTcmWB_params (s : State) (t : Tcm) (l : List TcmEntry) : (s.setTcmWB t l).params = s.params := by cases t <;> rfl
@[simp] theorem State.setTcmWB_free (s : State) (t : Tcm) (l : List TcmEntry) : (s.setTcmWB t l).free = s.free := by cases t <;> rfl
@[simp] theorem State.setTcmWB_agenda (s : State) (t : Tcm) (l : List TcmEntry) : (s.setTcmWB t l).agenda = s.agenda := by cases t <;> rfl
@[simp] theorem State.setTcmWB_inside (s : State) (t : Tcm) (l : List TcmEntry) : (s.setTcmWB t l).inside = s.inside := by cases t <;> rfl

/-! ### haltAt -/

@[simp] theorem State.haltAt_regs (s : State) (v : Word) : (s.haltAt v).regs = s.regs := rfl
@[simp] theorem State.haltAt_pc (s : State) (v : Word) : (s.haltAt v).pc = s.pc := rfl
@[simp] theorem State.haltAt_cpsr (s : State) (v : Word) : (s.haltAt v).cpsr = s.cpsr := rfl
@[simp] theorem State.haltAt_spsrs (s : State) (v : Word) : (s.haltAt v).spsrs = s.spsrs := rfl
@[simp] theorem State.haltAt_unrecoverable (s : State) (v : Word) : (s.haltAt v).unrecoverable = s.unrecoverable := rfl
@[simp] theorem State.haltAt_ctl (s : State) (v : Word) : (s.haltAt v).ctl = s.ctl := rfl
@[simp] theorem State.haltAt_cfg (s : State) (v : Word) : (s.haltAt v).cfg = s.cfg := rfl
@[simp] theorem State.haltAt_procId (s : State) (v : Word) : (s.haltAt v).procId = s.procId := rfl
@[simp] theorem State.haltAt_procIdWrites (s : State) (v : Word) : (s.haltAt v).procIdWrites = s.procIdWrites := rfl
@[simp] theorem State.haltAt_etmHeld (s : State) (v : Word) : (s.haltAt v).etmHeld = s.etmHeld := rfl
@[simp] theorem State.haltAt_dcc (s : State) (v : Word) : (s.haltAt v).dcc = s.dcc := rfl
@[simp] theorem State.haltAt_dbg (s : State) (v : Word) : (s.haltAt v).dbg = { s.dbg with halted := true, wptLatch := false, statusT := s.cpsr.t, pcView := v } := rfl
@[simp] theorem State.haltAt_standby (s : State) (v : Word) : (s.haltAt v).standby = false := rfl
@[simp] theorem State.haltAt_itcm (s : State) (v : Word) : (s.haltAt v).itcm = s.itcm := rfl
@[simp] theorem State.haltAt_dtcm (s : State) (v : Word) : (s.haltAt v).dtcm = s.dtcm := rfl
@[simp] theorem State.haltAt_ahb (s : State) (v : Word) : (s.haltAt v).ahb = s.ahb := rfl
@[simp] theorem State.haltAt_itcmWB (s : State) (v : Word) : (s.haltAt v).itcmWB = s.itcmWB := rfl
@[simp] theorem State.haltAt_dtcmWB (s : State) (v : Word) : (s.haltAt v).dtcmWB = s.dtcmWB := rfl
@[simp] theorem State.haltAt_ahbWB (s : State) (v : Word) : (s.haltAt v).ahbWB = s.ahbWB := rfl
@[simp] theorem State.haltAt_ipb (s : State) (v : Word) : (s.haltAt v).ipb = s.ipb := rfl
@[simp] theorem State.haltAt_ipbNext (s : State) (v : Word) : (s.haltAt v).ipbNext = s.ipbNext := rfl
@[simp] theorem State.haltAt_pipe (s : State) (v : Word) : (s.haltAt v).pipe = s.pipe := rfl
@[simp] theorem State.haltAt_nonseq (s : State) (v : Word) : (s.haltAt v).nonseq = s.nonseq := rfl
@[simp] theorem State.haltAt_pastTop (s : State) (v : Word) : (s.haltAt v).pastTop = s.pastTop := rfl
@[simp] theorem State.haltAt_bankHazard (s : State) (v : Word) : (s.haltAt v).bankHazard = s.bankHazard := rfl
@[simp] theorem State.haltAt_oldRoutes (s : State) (v : Word) : (s.haltAt v).oldRoutes = s.oldRoutes := rfl
@[simp] theorem State.haltAt_etmRun (s : State) (v : Word) : (s.haltAt v).etmRun = s.etmRun := rfl
@[simp] theorem State.haltAt_pins (s : State) (v : Word) : (s.haltAt v).pins = s.pins := rfl
@[simp] theorem State.haltAt_ahbErrors (s : State) (v : Word) : (s.haltAt v).ahbErrors = s.ahbErrors := rfl
@[simp] theorem State.haltAt_itcmErrors (s : State) (v : Word) : (s.haltAt v).itcmErrors = s.itcmErrors := rfl
@[simp] theorem State.haltAt_dtcmErrors (s : State) (v : Word) : (s.haltAt v).dtcmErrors = s.dtcmErrors := rfl
@[simp] theorem State.haltAt_dmaOut (s : State) (v : Word) : (s.haltAt v).dmaOut = s.dmaOut := rfl
@[simp] theorem State.haltAt_dbgOut (s : State) (v : Word) : (s.haltAt v).dbgOut = s.dbgOut := rfl
@[simp] theorem State.haltAt_params (s : State) (v : Word) : (s.haltAt v).params = s.params := rfl
@[simp] theorem State.haltAt_free (s : State) (v : Word) : (s.haltAt v).free = s.free := rfl
@[simp] theorem State.haltAt_agenda (s : State) (v : Word) : (s.haltAt v).agenda = s.agenda := rfl
@[simp] theorem State.haltAt_inside (s : State) (v : Word) : (s.haltAt v).inside = s.inside := rfl

/-! ### enterDebug -/

@[simp] theorem State.enterDebug_regs (s : State)  : (s.enterDebug).regs = s.regs := rfl
@[simp] theorem State.enterDebug_pc (s : State)  : (s.enterDebug).pc = s.pc := rfl
@[simp] theorem State.enterDebug_cpsr (s : State)  : (s.enterDebug).cpsr = s.cpsr := rfl
@[simp] theorem State.enterDebug_spsrs (s : State)  : (s.enterDebug).spsrs = s.spsrs := rfl
@[simp] theorem State.enterDebug_unrecoverable (s : State)  : (s.enterDebug).unrecoverable = s.unrecoverable := rfl
@[simp] theorem State.enterDebug_ctl (s : State)  : (s.enterDebug).ctl = s.ctl := rfl
@[simp] theorem State.enterDebug_cfg (s : State)  : (s.enterDebug).cfg = s.cfg := rfl
@[simp] theorem State.enterDebug_procId (s : State)  : (s.enterDebug).procId = s.procId := rfl
@[simp] theorem State.enterDebug_procIdWrites (s : State)  : (s.enterDebug).procIdWrites = s.procIdWrites := rfl
@[simp] theorem State.enterDebug_etmHeld (s : State)  : (s.enterDebug).etmHeld = s.etmHeld := rfl
@[simp] theorem State.enterDebug_dcc (s : State)  : (s.enterDebug).dcc = s.dcc := rfl
@[simp] theorem State.enterDebug_dbg (s : State)  : (s.enterDebug).dbg = { s.dbg with halted := true, wptLatch := false, statusT := s.cpsr.t, pcView := Config.freeWord s.free } := rfl
@[simp] theorem State.enterDebug_standby (s : State)  : (s.enterDebug).standby = false := rfl
@[simp] theorem State.enterDebug_itcm (s : State)  : (s.enterDebug).itcm = s.itcm := rfl
@[simp] theorem State.enterDebug_dtcm (s : State)  : (s.enterDebug).dtcm = s.dtcm := rfl
@[simp] theorem State.enterDebug_ahb (s : State)  : (s.enterDebug).ahb = s.ahb := rfl
@[simp] theorem State.enterDebug_itcmWB (s : State)  : (s.enterDebug).itcmWB = s.itcmWB := rfl
@[simp] theorem State.enterDebug_dtcmWB (s : State)  : (s.enterDebug).dtcmWB = s.dtcmWB := rfl
@[simp] theorem State.enterDebug_ahbWB (s : State)  : (s.enterDebug).ahbWB = s.ahbWB := rfl
@[simp] theorem State.enterDebug_ipb (s : State)  : (s.enterDebug).ipb = s.ipb := rfl
@[simp] theorem State.enterDebug_ipbNext (s : State)  : (s.enterDebug).ipbNext = s.ipbNext := rfl
@[simp] theorem State.enterDebug_pipe (s : State)  : (s.enterDebug).pipe = s.pipe := rfl
@[simp] theorem State.enterDebug_nonseq (s : State)  : (s.enterDebug).nonseq = s.nonseq := rfl
@[simp] theorem State.enterDebug_pastTop (s : State)  : (s.enterDebug).pastTop = s.pastTop := rfl
@[simp] theorem State.enterDebug_bankHazard (s : State)  : (s.enterDebug).bankHazard = s.bankHazard := rfl
@[simp] theorem State.enterDebug_oldRoutes (s : State)  : (s.enterDebug).oldRoutes = s.oldRoutes := rfl
@[simp] theorem State.enterDebug_etmRun (s : State)  : (s.enterDebug).etmRun = s.etmRun := rfl
@[simp] theorem State.enterDebug_pins (s : State)  : (s.enterDebug).pins = s.pins := rfl
@[simp] theorem State.enterDebug_ahbErrors (s : State)  : (s.enterDebug).ahbErrors = s.ahbErrors := rfl
@[simp] theorem State.enterDebug_itcmErrors (s : State)  : (s.enterDebug).itcmErrors = s.itcmErrors := rfl
@[simp] theorem State.enterDebug_dtcmErrors (s : State)  : (s.enterDebug).dtcmErrors = s.dtcmErrors := rfl
@[simp] theorem State.enterDebug_dmaOut (s : State)  : (s.enterDebug).dmaOut = s.dmaOut := rfl
@[simp] theorem State.enterDebug_dbgOut (s : State)  : (s.enterDebug).dbgOut = s.dbgOut := rfl
@[simp] theorem State.enterDebug_params (s : State)  : (s.enterDebug).params = s.params := rfl
@[simp] theorem State.enterDebug_free (s : State)  : (s.enterDebug).free = s.free + 1 := rfl
@[simp] theorem State.enterDebug_agenda (s : State)  : (s.enterDebug).agenda = s.agenda := rfl
@[simp] theorem State.enterDebug_inside (s : State)  : (s.enterDebug).inside = s.inside := rfl

/-! ### enterWatched -/

@[simp] theorem State.enterWatched_regs (s : State)  : (s.enterWatched).regs = s.regs := by unfold State.enterWatched; split <;> rfl
@[simp] theorem State.enterWatched_pc (s : State)  : (s.enterWatched).pc = s.pc := by unfold State.enterWatched; split <;> rfl
@[simp] theorem State.enterWatched_cpsr (s : State)  : (s.enterWatched).cpsr = s.cpsr := by unfold State.enterWatched; split <;> rfl
@[simp] theorem State.enterWatched_spsrs (s : State)  : (s.enterWatched).spsrs = s.spsrs := by unfold State.enterWatched; split <;> rfl
@[simp] theorem State.enterWatched_unrecoverable (s : State)  : (s.enterWatched).unrecoverable = s.unrecoverable := by unfold State.enterWatched; split <;> rfl
@[simp] theorem State.enterWatched_ctl (s : State)  : (s.enterWatched).ctl = s.ctl := by unfold State.enterWatched; split <;> rfl
@[simp] theorem State.enterWatched_cfg (s : State)  : (s.enterWatched).cfg = s.cfg := by unfold State.enterWatched; split <;> rfl
@[simp] theorem State.enterWatched_procId (s : State)  : (s.enterWatched).procId = s.procId := by unfold State.enterWatched; split <;> rfl
@[simp] theorem State.enterWatched_procIdWrites (s : State)  : (s.enterWatched).procIdWrites = s.procIdWrites := by unfold State.enterWatched; split <;> rfl
@[simp] theorem State.enterWatched_etmHeld (s : State)  : (s.enterWatched).etmHeld = s.etmHeld := by unfold State.enterWatched; split <;> rfl
@[simp] theorem State.enterWatched_dcc (s : State)  : (s.enterWatched).dcc = s.dcc := by unfold State.enterWatched; split <;> rfl
@[simp] theorem State.enterWatched_itcm (s : State)  : (s.enterWatched).itcm = s.itcm := by unfold State.enterWatched; split <;> rfl
@[simp] theorem State.enterWatched_dtcm (s : State)  : (s.enterWatched).dtcm = s.dtcm := by unfold State.enterWatched; split <;> rfl
@[simp] theorem State.enterWatched_ahb (s : State)  : (s.enterWatched).ahb = s.ahb := by unfold State.enterWatched; split <;> rfl
@[simp] theorem State.enterWatched_itcmWB (s : State)  : (s.enterWatched).itcmWB = s.itcmWB := by unfold State.enterWatched; split <;> rfl
@[simp] theorem State.enterWatched_dtcmWB (s : State)  : (s.enterWatched).dtcmWB = s.dtcmWB := by unfold State.enterWatched; split <;> rfl
@[simp] theorem State.enterWatched_ahbWB (s : State)  : (s.enterWatched).ahbWB = s.ahbWB := by unfold State.enterWatched; split <;> rfl
@[simp] theorem State.enterWatched_ipb (s : State)  : (s.enterWatched).ipb = s.ipb := by unfold State.enterWatched; split <;> rfl
@[simp] theorem State.enterWatched_ipbNext (s : State)  : (s.enterWatched).ipbNext = s.ipbNext := by unfold State.enterWatched; split <;> rfl
@[simp] theorem State.enterWatched_pipe (s : State)  : (s.enterWatched).pipe = s.pipe := by unfold State.enterWatched; split <;> rfl
@[simp] theorem State.enterWatched_nonseq (s : State)  : (s.enterWatched).nonseq = s.nonseq := by unfold State.enterWatched; split <;> rfl
@[simp] theorem State.enterWatched_pastTop (s : State)  : (s.enterWatched).pastTop = s.pastTop := by unfold State.enterWatched; split <;> rfl
@[simp] theorem State.enterWatched_bankHazard (s : State)  : (s.enterWatched).bankHazard = s.bankHazard := by unfold State.enterWatched; split <;> rfl
@[simp] theorem State.enterWatched_oldRoutes (s : State)  : (s.enterWatched).oldRoutes = s.oldRoutes := by unfold State.enterWatched; split <;> rfl
@[simp] theorem State.enterWatched_etmRun (s : State)  : (s.enterWatched).etmRun = s.etmRun := by unfold State.enterWatched; split <;> rfl
@[simp] theorem State.enterWatched_pins (s : State)  : (s.enterWatched).pins = s.pins := by unfold State.enterWatched; split <;> rfl
@[simp] theorem State.enterWatched_ahbErrors (s : State)  : (s.enterWatched).ahbErrors = s.ahbErrors := by unfold State.enterWatched; split <;> rfl
@[simp] theorem State.enterWatched_itcmErrors (s : State)  : (s.enterWatched).itcmErrors = s.itcmErrors := by unfold State.enterWatched; split <;> rfl
@[simp] theorem State.enterWatched_dtcmErrors (s : State)  : (s.enterWatched).dtcmErrors = s.dtcmErrors := by unfold State.enterWatched; split <;> rfl
@[simp] theorem State.enterWatched_dmaOut (s : State)  : (s.enterWatched).dmaOut = s.dmaOut := by unfold State.enterWatched; split <;> rfl
@[simp] theorem State.enterWatched_dbgOut (s : State)  : (s.enterWatched).dbgOut = s.dbgOut := by unfold State.enterWatched; split <;> rfl
@[simp] theorem State.enterWatched_params (s : State)  : (s.enterWatched).params = s.params := by unfold State.enterWatched; split <;> rfl
@[simp] theorem State.enterWatched_free (s : State)  : (s.enterWatched).free = s.free := by unfold State.enterWatched; split <;> rfl
@[simp] theorem State.enterWatched_agenda (s : State)  : (s.enterWatched).agenda = s.agenda := by unfold State.enterWatched; split <;> rfl
@[simp] theorem State.enterWatched_inside (s : State)  : (s.enterWatched).inside = s.inside := by unfold State.enterWatched; split <;> rfl

/-! ### settle -/

@[simp] theorem State.settle_regs (s : State)  : (s.settle).regs = s.regs := by unfold State.settle; split <;> rfl
@[simp] theorem State.settle_pc (s : State)  : (s.settle).pc = s.pc := by unfold State.settle; split <;> rfl
@[simp] theorem State.settle_cpsr (s : State)  : (s.settle).cpsr = s.cpsr := by unfold State.settle; split <;> rfl
@[simp] theorem State.settle_spsrs (s : State)  : (s.settle).spsrs = s.spsrs := by unfold State.settle; split <;> rfl
@[simp] theorem State.settle_unrecoverable (s : State)  : (s.settle).unrecoverable = s.unrecoverable := by unfold State.settle; split <;> rfl
@[simp] theorem State.settle_ctl (s : State)  : (s.settle).ctl = s.ctl := by unfold State.settle; split <;> rfl
@[simp] theorem State.settle_cfg (s : State)  : (s.settle).cfg = s.cfg := by unfold State.settle; split <;> rfl
@[simp] theorem State.settle_procId (s : State)  : (s.settle).procId = s.procId := by unfold State.settle; split <;> rfl
@[simp] theorem State.settle_procIdWrites (s : State)  : (s.settle).procIdWrites = s.procIdWrites := by unfold State.settle; split <;> rfl
@[simp] theorem State.settle_etmHeld (s : State)  : (s.settle).etmHeld = s.etmHeld := by unfold State.settle; split <;> rfl
@[simp] theorem State.settle_dcc (s : State)  : (s.settle).dcc = s.dcc := by unfold State.settle; split <;> rfl
@[simp] theorem State.settle_dbg (s : State)  : (s.settle).dbg = s.dbg := by unfold State.settle; split <;> rfl
@[simp] theorem State.settle_standby (s : State)  : (s.settle).standby = s.standby := by unfold State.settle; split <;> rfl
@[simp] theorem State.settle_itcm (s : State)  : (s.settle).itcm = s.itcm := by unfold State.settle; split <;> rfl
@[simp] theorem State.settle_dtcm (s : State)  : (s.settle).dtcm = s.dtcm := by unfold State.settle; split <;> rfl
@[simp] theorem State.settle_ahb (s : State)  : (s.settle).ahb = s.ahb := by unfold State.settle; split <;> rfl
@[simp] theorem State.settle_itcmWB (s : State)  : (s.settle).itcmWB = s.itcmWB := by unfold State.settle; split <;> rfl
@[simp] theorem State.settle_dtcmWB (s : State)  : (s.settle).dtcmWB = s.dtcmWB := by unfold State.settle; split <;> rfl
@[simp] theorem State.settle_ahbWB (s : State)  : (s.settle).ahbWB = s.ahbWB := by unfold State.settle; split <;> rfl
@[simp] theorem State.settle_ipb (s : State)  : (s.settle).ipb = s.ipb := by unfold State.settle; split <;> rfl
@[simp] theorem State.settle_ipbNext (s : State)  : (s.settle).ipbNext = s.ipbNext := by unfold State.settle; split <;> rfl
@[simp] theorem State.settle_pipe (s : State)  : (s.settle).pipe = s.pipe := by unfold State.settle; split <;> rfl
@[simp] theorem State.settle_nonseq (s : State)  : (s.settle).nonseq = s.nonseq := by unfold State.settle; split <;> rfl
@[simp] theorem State.settle_pastTop (s : State)  : (s.settle).pastTop = s.pastTop := by unfold State.settle; split <;> rfl
@[simp] theorem State.settle_bankHazard (s : State)  : (s.settle).bankHazard = s.bankHazard := by unfold State.settle; split <;> rfl
@[simp] theorem State.settle_oldRoutes (s : State)  : (s.settle).oldRoutes = s.oldRoutes := by unfold State.settle; split <;> rfl
@[simp] theorem State.settle_pins (s : State)  : (s.settle).pins = s.pins := by unfold State.settle; split <;> rfl
@[simp] theorem State.settle_ahbErrors (s : State)  : (s.settle).ahbErrors = s.ahbErrors := by unfold State.settle; split <;> rfl
@[simp] theorem State.settle_itcmErrors (s : State)  : (s.settle).itcmErrors = s.itcmErrors := by unfold State.settle; split <;> rfl
@[simp] theorem State.settle_dtcmErrors (s : State)  : (s.settle).dtcmErrors = s.dtcmErrors := by unfold State.settle; split <;> rfl
@[simp] theorem State.settle_dmaOut (s : State)  : (s.settle).dmaOut = s.dmaOut := by unfold State.settle; split <;> rfl
@[simp] theorem State.settle_dbgOut (s : State)  : (s.settle).dbgOut = s.dbgOut := by unfold State.settle; split <;> rfl
@[simp] theorem State.settle_params (s : State)  : (s.settle).params = s.params := by unfold State.settle; split <;> rfl
@[simp] theorem State.settle_free (s : State)  : (s.settle).free = s.free := by unfold State.settle; split <;> rfl
@[simp] theorem State.settle_agenda (s : State)  : (s.settle).agenda = s.agenda := by unfold State.settle; split <;> rfl
@[simp] theorem State.settle_inside (s : State)  : (s.settle).inside = s.inside := by unfold State.settle; split <;> rfl

/-! ### popWatch -/

@[simp] theorem State.popWatch_regs (s : State)  : (s.popWatch).regs = s.regs := rfl
@[simp] theorem State.popWatch_pc (s : State)  : (s.popWatch).pc = s.pc := rfl
@[simp] theorem State.popWatch_cpsr (s : State)  : (s.popWatch).cpsr = s.cpsr := rfl
@[simp] theorem State.popWatch_spsrs (s : State)  : (s.popWatch).spsrs = s.spsrs := rfl
@[simp] theorem State.popWatch_unrecoverable (s : State)  : (s.popWatch).unrecoverable = s.unrecoverable := rfl
@[simp] theorem State.popWatch_ctl (s : State)  : (s.popWatch).ctl = s.ctl := rfl
@[simp] theorem State.popWatch_cfg (s : State)  : (s.popWatch).cfg = s.cfg := rfl
@[simp] theorem State.popWatch_procId (s : State)  : (s.popWatch).procId = s.procId := rfl
@[simp] theorem State.popWatch_procIdWrites (s : State)  : (s.popWatch).procIdWrites = s.procIdWrites := rfl
@[simp] theorem State.popWatch_etmHeld (s : State)  : (s.popWatch).etmHeld = s.etmHeld := rfl
@[simp] theorem State.popWatch_dcc (s : State)  : (s.popWatch).dcc = s.dcc := rfl
@[simp] theorem State.popWatch_dbg (s : State)  : (s.popWatch).dbg = { s.dbg with wptMatch := s.dbg.wptMatch.tail } := rfl
@[simp] theorem State.popWatch_standby (s : State)  : (s.popWatch).standby = s.standby := rfl
@[simp] theorem State.popWatch_itcm (s : State)  : (s.popWatch).itcm = s.itcm := rfl
@[simp] theorem State.popWatch_dtcm (s : State)  : (s.popWatch).dtcm = s.dtcm := rfl
@[simp] theorem State.popWatch_ahb (s : State)  : (s.popWatch).ahb = s.ahb := rfl
@[simp] theorem State.popWatch_itcmWB (s : State)  : (s.popWatch).itcmWB = s.itcmWB := rfl
@[simp] theorem State.popWatch_dtcmWB (s : State)  : (s.popWatch).dtcmWB = s.dtcmWB := rfl
@[simp] theorem State.popWatch_ahbWB (s : State)  : (s.popWatch).ahbWB = s.ahbWB := rfl
@[simp] theorem State.popWatch_ipb (s : State)  : (s.popWatch).ipb = s.ipb := rfl
@[simp] theorem State.popWatch_ipbNext (s : State)  : (s.popWatch).ipbNext = s.ipbNext := rfl
@[simp] theorem State.popWatch_pipe (s : State)  : (s.popWatch).pipe = s.pipe := rfl
@[simp] theorem State.popWatch_nonseq (s : State)  : (s.popWatch).nonseq = s.nonseq := rfl
@[simp] theorem State.popWatch_pastTop (s : State)  : (s.popWatch).pastTop = s.pastTop := rfl
@[simp] theorem State.popWatch_bankHazard (s : State)  : (s.popWatch).bankHazard = s.bankHazard := rfl
@[simp] theorem State.popWatch_oldRoutes (s : State)  : (s.popWatch).oldRoutes = s.oldRoutes := rfl
@[simp] theorem State.popWatch_etmRun (s : State)  : (s.popWatch).etmRun = s.etmRun := rfl
@[simp] theorem State.popWatch_pins (s : State)  : (s.popWatch).pins = s.pins := rfl
@[simp] theorem State.popWatch_ahbErrors (s : State)  : (s.popWatch).ahbErrors = s.ahbErrors := rfl
@[simp] theorem State.popWatch_itcmErrors (s : State)  : (s.popWatch).itcmErrors = s.itcmErrors := rfl
@[simp] theorem State.popWatch_dtcmErrors (s : State)  : (s.popWatch).dtcmErrors = s.dtcmErrors := rfl
@[simp] theorem State.popWatch_dmaOut (s : State)  : (s.popWatch).dmaOut = s.dmaOut := rfl
@[simp] theorem State.popWatch_dbgOut (s : State)  : (s.popWatch).dbgOut = s.dbgOut := rfl
@[simp] theorem State.popWatch_params (s : State)  : (s.popWatch).params = s.params := rfl
@[simp] theorem State.popWatch_free (s : State)  : (s.popWatch).free = s.free := rfl
@[simp] theorem State.popWatch_agenda (s : State)  : (s.popWatch).agenda = s.agenda := rfl
@[simp] theorem State.popWatch_inside (s : State)  : (s.popWatch).inside = s.inside := rfl

/-! ### latchWatch -/

@[simp] theorem State.latchWatch_regs (s : State)  : (s.latchWatch).regs = s.regs := rfl
@[simp] theorem State.latchWatch_pc (s : State)  : (s.latchWatch).pc = s.pc := rfl
@[simp] theorem State.latchWatch_cpsr (s : State)  : (s.latchWatch).cpsr = s.cpsr := rfl
@[simp] theorem State.latchWatch_spsrs (s : State)  : (s.latchWatch).spsrs = s.spsrs := rfl
@[simp] theorem State.latchWatch_unrecoverable (s : State)  : (s.latchWatch).unrecoverable = s.unrecoverable := rfl
@[simp] theorem State.latchWatch_ctl (s : State)  : (s.latchWatch).ctl = s.ctl := rfl
@[simp] theorem State.latchWatch_cfg (s : State)  : (s.latchWatch).cfg = s.cfg := rfl
@[simp] theorem State.latchWatch_procId (s : State)  : (s.latchWatch).procId = s.procId := rfl
@[simp] theorem State.latchWatch_procIdWrites (s : State)  : (s.latchWatch).procIdWrites = s.procIdWrites := rfl
@[simp] theorem State.latchWatch_etmHeld (s : State)  : (s.latchWatch).etmHeld = s.etmHeld := rfl
@[simp] theorem State.latchWatch_dcc (s : State)  : (s.latchWatch).dcc = s.dcc := rfl
@[simp] theorem State.latchWatch_dbg (s : State)  : (s.latchWatch).dbg = { s.dbg with wptLatch := s.dbg.wptLatch || !s.dbg.monitor } := rfl
@[simp] theorem State.latchWatch_standby (s : State)  : (s.latchWatch).standby = s.standby := rfl
@[simp] theorem State.latchWatch_itcm (s : State)  : (s.latchWatch).itcm = s.itcm := rfl
@[simp] theorem State.latchWatch_dtcm (s : State)  : (s.latchWatch).dtcm = s.dtcm := rfl
@[simp] theorem State.latchWatch_ahb (s : State)  : (s.latchWatch).ahb = s.ahb := rfl
@[simp] theorem State.latchWatch_itcmWB (s : State)  : (s.latchWatch).itcmWB = s.itcmWB := rfl
@[simp] theorem State.latchWatch_dtcmWB (s : State)  : (s.latchWatch).dtcmWB = s.dtcmWB := rfl
@[simp] theorem State.latchWatch_ahbWB (s : State)  : (s.latchWatch).ahbWB = s.ahbWB := rfl
@[simp] theorem State.latchWatch_ipb (s : State)  : (s.latchWatch).ipb = s.ipb := rfl
@[simp] theorem State.latchWatch_ipbNext (s : State)  : (s.latchWatch).ipbNext = s.ipbNext := rfl
@[simp] theorem State.latchWatch_pipe (s : State)  : (s.latchWatch).pipe = s.pipe := rfl
@[simp] theorem State.latchWatch_nonseq (s : State)  : (s.latchWatch).nonseq = s.nonseq := rfl
@[simp] theorem State.latchWatch_pastTop (s : State)  : (s.latchWatch).pastTop = s.pastTop := rfl
@[simp] theorem State.latchWatch_bankHazard (s : State)  : (s.latchWatch).bankHazard = s.bankHazard := rfl
@[simp] theorem State.latchWatch_oldRoutes (s : State)  : (s.latchWatch).oldRoutes = s.oldRoutes := rfl
@[simp] theorem State.latchWatch_etmRun (s : State)  : (s.latchWatch).etmRun = s.etmRun := rfl
@[simp] theorem State.latchWatch_pins (s : State)  : (s.latchWatch).pins = s.pins := rfl
@[simp] theorem State.latchWatch_ahbErrors (s : State)  : (s.latchWatch).ahbErrors = s.ahbErrors := rfl
@[simp] theorem State.latchWatch_itcmErrors (s : State)  : (s.latchWatch).itcmErrors = s.itcmErrors := rfl
@[simp] theorem State.latchWatch_dtcmErrors (s : State)  : (s.latchWatch).dtcmErrors = s.dtcmErrors := rfl
@[simp] theorem State.latchWatch_dmaOut (s : State)  : (s.latchWatch).dmaOut = s.dmaOut := rfl
@[simp] theorem State.latchWatch_dbgOut (s : State)  : (s.latchWatch).dbgOut = s.dbgOut := rfl
@[simp] theorem State.latchWatch_params (s : State)  : (s.latchWatch).params = s.params := rfl
@[simp] theorem State.latchWatch_free (s : State)  : (s.latchWatch).free = s.free := rfl
@[simp] theorem State.latchWatch_agenda (s : State)  : (s.latchWatch).agenda = s.agenda := rfl
@[simp] theorem State.latchWatch_inside (s : State)  : (s.latchWatch).inside = s.inside := rfl

/-! ### setDbgAbt -/

@[simp] theorem State.setDbgAbt_regs (s : State)  : (s.setDbgAbt).regs = s.regs := rfl
@[simp] theorem State.setDbgAbt_pc (s : State)  : (s.setDbgAbt).pc = s.pc := rfl
@[simp] theorem State.setDbgAbt_cpsr (s : State)  : (s.setDbgAbt).cpsr = s.cpsr := rfl
@[simp] theorem State.setDbgAbt_spsrs (s : State)  : (s.setDbgAbt).spsrs = s.spsrs := rfl
@[simp] theorem State.setDbgAbt_unrecoverable (s : State)  : (s.setDbgAbt).unrecoverable = s.unrecoverable := rfl
@[simp] theorem State.setDbgAbt_ctl (s : State)  : (s.setDbgAbt).ctl = s.ctl := rfl
@[simp] theorem State.setDbgAbt_cfg (s : State)  : (s.setDbgAbt).cfg = s.cfg := rfl
@[simp] theorem State.setDbgAbt_procId (s : State)  : (s.setDbgAbt).procId = s.procId := rfl
@[simp] theorem State.setDbgAbt_procIdWrites (s : State)  : (s.setDbgAbt).procIdWrites = s.procIdWrites := rfl
@[simp] theorem State.setDbgAbt_etmHeld (s : State)  : (s.setDbgAbt).etmHeld = s.etmHeld := rfl
@[simp] theorem State.setDbgAbt_dcc (s : State)  : (s.setDbgAbt).dcc = { s.dcc with dbgAbt := true } := rfl
@[simp] theorem State.setDbgAbt_dbg (s : State)  : (s.setDbgAbt).dbg = s.dbg := rfl
@[simp] theorem State.setDbgAbt_standby (s : State)  : (s.setDbgAbt).standby = s.standby := rfl
@[simp] theorem State.setDbgAbt_itcm (s : State)  : (s.setDbgAbt).itcm = s.itcm := rfl
@[simp] theorem State.setDbgAbt_dtcm (s : State)  : (s.setDbgAbt).dtcm = s.dtcm := rfl
@[simp] theorem State.setDbgAbt_ahb (s : State)  : (s.setDbgAbt).ahb = s.ahb := rfl
@[simp] theorem State.setDbgAbt_itcmWB (s : State)  : (s.setDbgAbt).itcmWB = s.itcmWB := rfl
@[simp] theorem State.setDbgAbt_dtcmWB (s : State)  : (s.setDbgAbt).dtcmWB = s.dtcmWB := rfl
@[simp] theorem State.setDbgAbt_ahbWB (s : State)  : (s.setDbgAbt).ahbWB = s.ahbWB := rfl
@[simp] theorem State.setDbgAbt_ipb (s : State)  : (s.setDbgAbt).ipb = s.ipb := rfl
@[simp] theorem State.setDbgAbt_ipbNext (s : State)  : (s.setDbgAbt).ipbNext = s.ipbNext := rfl
@[simp] theorem State.setDbgAbt_pipe (s : State)  : (s.setDbgAbt).pipe = s.pipe := rfl
@[simp] theorem State.setDbgAbt_nonseq (s : State)  : (s.setDbgAbt).nonseq = s.nonseq := rfl
@[simp] theorem State.setDbgAbt_pastTop (s : State)  : (s.setDbgAbt).pastTop = s.pastTop := rfl
@[simp] theorem State.setDbgAbt_bankHazard (s : State)  : (s.setDbgAbt).bankHazard = s.bankHazard := rfl
@[simp] theorem State.setDbgAbt_oldRoutes (s : State)  : (s.setDbgAbt).oldRoutes = s.oldRoutes := rfl
@[simp] theorem State.setDbgAbt_etmRun (s : State)  : (s.setDbgAbt).etmRun = s.etmRun := rfl
@[simp] theorem State.setDbgAbt_pins (s : State)  : (s.setDbgAbt).pins = s.pins := rfl
@[simp] theorem State.setDbgAbt_ahbErrors (s : State)  : (s.setDbgAbt).ahbErrors = s.ahbErrors := rfl
@[simp] theorem State.setDbgAbt_itcmErrors (s : State)  : (s.setDbgAbt).itcmErrors = s.itcmErrors := rfl
@[simp] theorem State.setDbgAbt_dtcmErrors (s : State)  : (s.setDbgAbt).dtcmErrors = s.dtcmErrors := rfl
@[simp] theorem State.setDbgAbt_dmaOut (s : State)  : (s.setDbgAbt).dmaOut = s.dmaOut := rfl
@[simp] theorem State.setDbgAbt_dbgOut (s : State)  : (s.setDbgAbt).dbgOut = s.dbgOut := rfl
@[simp] theorem State.setDbgAbt_params (s : State)  : (s.setDbgAbt).params = s.params := rfl
@[simp] theorem State.setDbgAbt_free (s : State)  : (s.setDbgAbt).free = s.free := rfl
@[simp] theorem State.setDbgAbt_agenda (s : State)  : (s.setDbgAbt).agenda = s.agenda := rfl
@[simp] theorem State.setDbgAbt_inside (s : State)  : (s.setDbgAbt).inside = s.inside := rfl

/-! ### barrier -/

@[simp] theorem State.barrier_regs (s : State)  : (s.barrier).regs = s.regs := rfl
@[simp] theorem State.barrier_pc (s : State)  : (s.barrier).pc = s.pc := rfl
@[simp] theorem State.barrier_cpsr (s : State)  : (s.barrier).cpsr = s.cpsr := rfl
@[simp] theorem State.barrier_spsrs (s : State)  : (s.barrier).spsrs = s.spsrs := rfl
@[simp] theorem State.barrier_unrecoverable (s : State)  : (s.barrier).unrecoverable = s.unrecoverable := rfl
@[simp] theorem State.barrier_ctl (s : State)  : (s.barrier).ctl = s.ctl := rfl
@[simp] theorem State.barrier_cfg (s : State)  : (s.barrier).cfg = s.cfg := rfl
@[simp] theorem State.barrier_procId (s : State)  : (s.barrier).procId = s.procId := rfl
@[simp] theorem State.barrier_procIdWrites (s : State)  : (s.barrier).procIdWrites = s.procIdWrites := rfl
@[simp] theorem State.barrier_etmHeld (s : State)  : (s.barrier).etmHeld = s.etmHeld := rfl
@[simp] theorem State.barrier_dcc (s : State)  : (s.barrier).dcc = s.dcc := rfl
@[simp] theorem State.barrier_dbg (s : State)  : (s.barrier).dbg = s.dbg := rfl
@[simp] theorem State.barrier_standby (s : State)  : (s.barrier).standby = s.standby := rfl
@[simp] theorem State.barrier_itcm (s : State)  : (s.barrier).itcm = s.itcm := rfl
@[simp] theorem State.barrier_dtcm (s : State)  : (s.barrier).dtcm = s.dtcm := rfl
@[simp] theorem State.barrier_ahb (s : State)  : (s.barrier).ahb = s.ahb := rfl
@[simp] theorem State.barrier_itcmWB (s : State)  : (s.barrier).itcmWB = s.itcmWB := rfl
@[simp] theorem State.barrier_dtcmWB (s : State)  : (s.barrier).dtcmWB = s.dtcmWB := rfl
@[simp] theorem State.barrier_ahbWB (s : State)  : (s.barrier).ahbWB = s.ahbWB := rfl
@[simp] theorem State.barrier_ipb (s : State)  : (s.barrier).ipb = s.ipb := rfl
@[simp] theorem State.barrier_ipbNext (s : State)  : (s.barrier).ipbNext = s.ipbNext := rfl
@[simp] theorem State.barrier_pipe (s : State)  : (s.barrier).pipe = s.pipe.map fun w => { w with drained := true } := rfl
@[simp] theorem State.barrier_nonseq (s : State)  : (s.barrier).nonseq = s.nonseq := rfl
@[simp] theorem State.barrier_pastTop (s : State)  : (s.barrier).pastTop = s.pastTop := rfl
@[simp] theorem State.barrier_bankHazard (s : State)  : (s.barrier).bankHazard = s.bankHazard := rfl
@[simp] theorem State.barrier_oldRoutes (s : State)  : (s.barrier).oldRoutes = s.oldRoutes := rfl
@[simp] theorem State.barrier_etmRun (s : State)  : (s.barrier).etmRun = s.etmRun := rfl
@[simp] theorem State.barrier_pins (s : State)  : (s.barrier).pins = s.pins := rfl
@[simp] theorem State.barrier_ahbErrors (s : State)  : (s.barrier).ahbErrors = s.ahbErrors := rfl
@[simp] theorem State.barrier_itcmErrors (s : State)  : (s.barrier).itcmErrors = s.itcmErrors := rfl
@[simp] theorem State.barrier_dtcmErrors (s : State)  : (s.barrier).dtcmErrors = s.dtcmErrors := rfl
@[simp] theorem State.barrier_dmaOut (s : State)  : (s.barrier).dmaOut = s.dmaOut := rfl
@[simp] theorem State.barrier_dbgOut (s : State)  : (s.barrier).dbgOut = s.dbgOut := rfl
@[simp] theorem State.barrier_params (s : State)  : (s.barrier).params = s.params := rfl
@[simp] theorem State.barrier_free (s : State)  : (s.barrier).free = s.free := rfl
@[simp] theorem State.barrier_agenda (s : State)  : (s.barrier).agenda = s.agenda := rfl
@[simp] theorem State.barrier_inside (s : State)  : (s.barrier).inside = s.inside := rfl

/-! ### show -/

@[simp] theorem State.show_regs (s : State) (v : Word) : (s.show v).regs = s.regs := rfl
@[simp] theorem State.show_pc (s : State) (v : Word) : (s.show v).pc = s.pc := rfl
@[simp] theorem State.show_cpsr (s : State) (v : Word) : (s.show v).cpsr = s.cpsr := rfl
@[simp] theorem State.show_spsrs (s : State) (v : Word) : (s.show v).spsrs = s.spsrs := rfl
@[simp] theorem State.show_unrecoverable (s : State) (v : Word) : (s.show v).unrecoverable = s.unrecoverable := rfl
@[simp] theorem State.show_ctl (s : State) (v : Word) : (s.show v).ctl = s.ctl := rfl
@[simp] theorem State.show_cfg (s : State) (v : Word) : (s.show v).cfg = s.cfg := rfl
@[simp] theorem State.show_procId (s : State) (v : Word) : (s.show v).procId = s.procId := rfl
@[simp] theorem State.show_procIdWrites (s : State) (v : Word) : (s.show v).procIdWrites = s.procIdWrites := rfl
@[simp] theorem State.show_etmHeld (s : State) (v : Word) : (s.show v).etmHeld = s.etmHeld := rfl
@[simp] theorem State.show_dcc (s : State) (v : Word) : (s.show v).dcc = s.dcc := rfl
@[simp] theorem State.show_dbg (s : State) (v : Word) : (s.show v).dbg = s.dbg := rfl
@[simp] theorem State.show_standby (s : State) (v : Word) : (s.show v).standby = s.standby := rfl
@[simp] theorem State.show_itcm (s : State) (v : Word) : (s.show v).itcm = s.itcm := rfl
@[simp] theorem State.show_dtcm (s : State) (v : Word) : (s.show v).dtcm = s.dtcm := rfl
@[simp] theorem State.show_ahb (s : State) (v : Word) : (s.show v).ahb = s.ahb := rfl
@[simp] theorem State.show_itcmWB (s : State) (v : Word) : (s.show v).itcmWB = s.itcmWB := rfl
@[simp] theorem State.show_dtcmWB (s : State) (v : Word) : (s.show v).dtcmWB = s.dtcmWB := rfl
@[simp] theorem State.show_ahbWB (s : State) (v : Word) : (s.show v).ahbWB = s.ahbWB := rfl
@[simp] theorem State.show_ipb (s : State) (v : Word) : (s.show v).ipb = s.ipb := rfl
@[simp] theorem State.show_ipbNext (s : State) (v : Word) : (s.show v).ipbNext = s.ipbNext := rfl
@[simp] theorem State.show_pipe (s : State) (v : Word) : (s.show v).pipe = s.pipe := rfl
@[simp] theorem State.show_nonseq (s : State) (v : Word) : (s.show v).nonseq = s.nonseq := rfl
@[simp] theorem State.show_pastTop (s : State) (v : Word) : (s.show v).pastTop = s.pastTop := rfl
@[simp] theorem State.show_bankHazard (s : State) (v : Word) : (s.show v).bankHazard = s.bankHazard := rfl
@[simp] theorem State.show_oldRoutes (s : State) (v : Word) : (s.show v).oldRoutes = s.oldRoutes := rfl
@[simp] theorem State.show_etmRun (s : State) (v : Word) : (s.show v).etmRun = s.etmRun := rfl
@[simp] theorem State.show_pins (s : State) (v : Word) : (s.show v).pins = s.pins := rfl
@[simp] theorem State.show_ahbErrors (s : State) (v : Word) : (s.show v).ahbErrors = s.ahbErrors := rfl
@[simp] theorem State.show_itcmErrors (s : State) (v : Word) : (s.show v).itcmErrors = s.itcmErrors := rfl
@[simp] theorem State.show_dtcmErrors (s : State) (v : Word) : (s.show v).dtcmErrors = s.dtcmErrors := rfl
@[simp] theorem State.show_dmaOut (s : State) (v : Word) : (s.show v).dmaOut = s.dmaOut := rfl
@[simp] theorem State.show_dbgOut (s : State) (v : Word) : (s.show v).dbgOut = some v := rfl
@[simp] theorem State.show_params (s : State) (v : Word) : (s.show v).params = s.params := rfl
@[simp] theorem State.show_free (s : State) (v : Word) : (s.show v).free = s.free := rfl
@[simp] theorem State.show_agenda (s : State) (v : Word) : (s.show v).agenda = s.agenda := rfl
@[simp] theorem State.show_inside (s : State) (v : Word) : (s.show v).inside = s.inside := rfl

/-! ### takeException -/

@[simp] theorem State.takeException_pc (s : State) (e : Exc) : (s.takeException e).pc = s.vectorBase + e.offset := by cases e <;> rfl
@[simp] theorem State.takeException_cpsr (s : State) (e : Exc) : (s.takeException e).cpsr = { s.cpsr with m := e.mode.bits, t := false, i := true, f := s.cpsr.f || e == .fiq } := by cases e <;> rfl
@[simp] theorem State.takeException_unrecoverable (s : State) (e : Exc) : (s.takeException e).unrecoverable = s.unrecoverable := by cases e <;> rfl
@[simp] theorem State.takeException_ctl (s : State) (e : Exc) : (s.takeException e).ctl = s.ctl := by cases e <;> rfl
@[simp] theorem State.takeException_cfg (s : State) (e : Exc) : (s.takeException e).cfg = s.cfg := by cases e <;> rfl
@[simp] theorem State.takeException_procId (s : State) (e : Exc) : (s.takeException e).procId = s.procId := by cases e <;> rfl
@[simp] theorem State.takeException_procIdWrites (s : State) (e : Exc) : (s.takeException e).procIdWrites = s.procIdWrites := by cases e <;> rfl
@[simp] theorem State.takeException_etmHeld (s : State) (e : Exc) : (s.takeException e).etmHeld = s.etmHeld := by cases e <;> rfl
@[simp] theorem State.takeException_dcc (s : State) (e : Exc) : (s.takeException e).dcc = s.dcc := by cases e <;> rfl
@[simp] theorem State.takeException_dbg (s : State) (e : Exc) : (s.takeException e).dbg = s.dbg := by cases e <;> rfl
@[simp] theorem State.takeException_standby (s : State) (e : Exc) : (s.takeException e).standby = s.standby := by cases e <;> rfl
@[simp] theorem State.takeException_itcm (s : State) (e : Exc) : (s.takeException e).itcm = s.itcm := by cases e <;> rfl
@[simp] theorem State.takeException_dtcm (s : State) (e : Exc) : (s.takeException e).dtcm = s.dtcm := by cases e <;> rfl
@[simp] theorem State.takeException_ahb (s : State) (e : Exc) : (s.takeException e).ahb = s.ahb := by cases e <;> rfl
@[simp] theorem State.takeException_itcmWB (s : State) (e : Exc) : (s.takeException e).itcmWB = s.itcmWB := by cases e <;> rfl
@[simp] theorem State.takeException_dtcmWB (s : State) (e : Exc) : (s.takeException e).dtcmWB = s.dtcmWB := by cases e <;> rfl
@[simp] theorem State.takeException_ahbWB (s : State) (e : Exc) : (s.takeException e).ahbWB = s.ahbWB := by cases e <;> rfl
@[simp] theorem State.takeException_ipb (s : State) (e : Exc) : (s.takeException e).ipb = s.ipb := by cases e <;> rfl
@[simp] theorem State.takeException_ipbNext (s : State) (e : Exc) : (s.takeException e).ipbNext = s.ipbNext := by cases e <;> rfl
@[simp] theorem State.takeException_pipe (s : State) (e : Exc) : (s.takeException e).pipe = afterTransfer s.pipe := by cases e <;> rfl
@[simp] theorem State.takeException_nonseq (s : State) (e : Exc) : (s.takeException e).nonseq = true := by cases e <;> rfl
@[simp] theorem State.takeException_pastTop (s : State) (e : Exc) : (s.takeException e).pastTop = false := by cases e <;> rfl
@[simp] theorem State.takeException_bankHazard (s : State) (e : Exc) : (s.takeException e).bankHazard = false := by cases e <;> rfl
@[simp] theorem State.takeException_oldRoutes (s : State) (e : Exc) : (s.takeException e).oldRoutes = [] := by cases e <;> rfl
@[simp] theorem State.takeException_etmRun (s : State) (e : Exc) : (s.takeException e).etmRun = s.etmRun := by cases e <;> rfl
@[simp] theorem State.takeException_pins (s : State) (e : Exc) : (s.takeException e).pins = s.pins := by cases e <;> rfl
@[simp] theorem State.takeException_ahbErrors (s : State) (e : Exc) : (s.takeException e).ahbErrors = s.ahbErrors := by cases e <;> rfl
@[simp] theorem State.takeException_itcmErrors (s : State) (e : Exc) : (s.takeException e).itcmErrors = s.itcmErrors := by cases e <;> rfl
@[simp] theorem State.takeException_dtcmErrors (s : State) (e : Exc) : (s.takeException e).dtcmErrors = s.dtcmErrors := by cases e <;> rfl
@[simp] theorem State.takeException_dmaOut (s : State) (e : Exc) : (s.takeException e).dmaOut = s.dmaOut := by cases e <;> rfl
@[simp] theorem State.takeException_dbgOut (s : State) (e : Exc) : (s.takeException e).dbgOut = s.dbgOut := by cases e <;> rfl
@[simp] theorem State.takeException_params (s : State) (e : Exc) : (s.takeException e).params = s.params := by cases e <;> rfl
@[simp] theorem State.takeException_free (s : State) (e : Exc) : (s.takeException e).free = s.free := by cases e <;> rfl
@[simp] theorem State.takeException_agenda (s : State) (e : Exc) : (s.takeException e).agenda = s.agenda := by cases e <;> rfl
@[simp] theorem State.takeException_inside (s : State) (e : Exc) : (s.takeException e).inside = s.inside := by cases e <;> rfl

/-! ### Registers -/

theorem PhysReg.idx_injective : ∀ p q : PhysReg, p.idx = q.idx → p = q := by
  intro p q
  cases p <;> cases q <;> first | (intro _; rfl) | (intro h; exact absurd h (by decide))

/-- A physical register after a write of a physical register. -/
@[simp] theorem State.getPhys_setPhys (s : State) (p q : PhysReg) (v : Word) :
    (s.setPhys p v).getPhys q = if q = p then v else s.getPhys q := by
  show (s.regs.set p.idx.val v p.idx.isLt)[q.idx.val] = if q = p then v else s.regs[q.idx.val]
  rw [Vector.getElem_set]
  by_cases h : q = p
  · subst h; simp
  · have hne : ¬ p.idx.val = q.idx.val := fun e => h (PhysReg.idx_injective q p (Fin.ext e.symm))
    rw [if_neg hne, if_neg h]

@[simp] theorem State.getPhys_advance (s : State) (p : PhysReg) : s.advance.getPhys p = s.getPhys p := rfl
@[simp] theorem State.getPhys_branchTo (s : State) (a : Word) (p : PhysReg) : (s.branchTo a).getPhys p = s.getPhys p := rfl
@[simp] theorem State.getPhys_setT (s : State) (t : Bool) (p : PhysReg) : (s.setT t).getPhys p = s.getPhys p := rfl
@[simp] theorem State.getPhys_putCpsr (s : State) (c : Psr) (p : PhysReg) : (s.putCpsr c).getPhys p = s.getPhys p := rfl
@[simp] theorem State.getPhys_barrier (s : State) (p : PhysReg) : s.barrier.getPhys p = s.getPhys p := rfl
@[simp] theorem State.getPhys_show (s : State) (v : Word) (p : PhysReg) : (s.show v).getPhys p = s.getPhys p := rfl
@[simp] theorem State.getPhys_enterDebug (s : State) (p : PhysReg) : s.enterDebug.getPhys p = s.getPhys p := rfl
@[simp] theorem State.getPhys_enterWatched (s : State) (p : PhysReg) : s.enterWatched.getPhys p = s.getPhys p := by
  rw [State.getPhys, State.getPhys, State.enterWatched_regs]
@[simp] theorem State.getPhys_setSpsr (s : State) (e : ExcMode) (c : Psr) (p : PhysReg) :
    (s.setSpsr e c).getPhys p = s.getPhys p := by cases e <;> rfl
@[simp] theorem State.getPhys_takeException (s : State) (e : Exc) (p : PhysReg) :
    (s.takeException e).getPhys p = if p = e.mode.linkReg then s.pc + e.linkOffset s.cpsr.t else s.getPhys p := by
  have h : (s.takeException e).getPhys p = (s.setPhys e.mode.linkReg (s.pc + e.linkOffset s.cpsr.t)).getPhys p := by
    cases e <;> rfl
  rw [h, State.getPhys_setPhys]

/-- A register index of the current mode after a write of one. -/
theorem State.getPhys_setReg (s : State) (r : Reg) (v : Word) (h : r ≠ 15) (q : PhysReg) :
    (s.setReg r v).getPhys q = if q = physReg s.cpsr.m r then v else s.getPhys q := by
  rw [State.setReg, if_neg h, State.getPhys_setPhys]

/-- An SPSR after a write of an SPSR. -/
@[simp] theorem State.spsr_setSpsr (s : State) (e e' : ExcMode) (p : Psr) :
    (s.setSpsr e p).spsr e' = if e' = e then p else s.spsr e' := by
  cases e <;> cases e' <;> rfl

/-- An SPSR after an exception. -/
@[simp] theorem State.spsr_takeException (s : State) (e : Exc) (e' : ExcMode) :
    (s.takeException e).spsr e' = if e' = e.mode then s.cpsr else s.spsr e' := by
  cases e <;> cases e' <;> rfl

@[simp] theorem State.ram_setRam (s : State) (t u : Tcm) (m : Memory) :
    (s.setRam t m).ram u = if u = t then m else s.ram u := by cases t <;> cases u <;> rfl
@[simp] theorem State.ram_setTcmWB (s : State) (t u : Tcm) (l : List TcmEntry) : (s.setTcmWB t l).ram u = s.ram u := by
  cases t <;> cases u <;> rfl
@[simp] theorem State.tcmWB_setTcmWB (s : State) (t u : Tcm) (l : List TcmEntry) :
    (s.setTcmWB t l).tcmWB u = if u = t then l else s.tcmWB u := by cases t <;> cases u <;> rfl
@[simp] theorem State.tcmWB_setRam (s : State) (t u : Tcm) (m : Memory) : (s.setRam t m).tcmWB u = s.tcmWB u := by
  cases t <;> cases u <;> rfl

/-- A register index 0 to 14 names one physical register of a mode, and different indexes name different ones. -/
theorem physReg_injective (m : BitVec 5) (r q : Reg) (hr : r ≠ 15) (hq : q ≠ 15) (h : physReg m r = physReg m q) : r = q := by
  revert h hr hq
  unfold physReg
  generalize excMode m = o
  revert r q
  rcases o with _ | e
  · decide
  · cases e <;> decide

end Sys2Proof.Machine
end

