-- ==== Sys2Proof/Laws/Memory.lean ====
section
/-! SUPPORT. Byte stores: a read after a write, and the canonical form that every memory operation keeps; the write buffers:
what a drain and a push do to the bytes that loads see. -/

namespace Sys2Proof.Machine

/-! ### One byte store -/

/-- Reading after writing one byte. -/
@[simp] theorem Memory.get?_set (m : Memory) (a x : Nat) (b : Byte) :
    (m.set a b).get? x = if x = a then some b else m.get? x := by
  induction m with
  | nil => simp [Memory.set, Memory.get?]
  | cons e r ih =>
    obtain ⟨k, c⟩ := e
    simp only [Memory.set]
    split
    · simp [Memory.get?]
    · split
      · subst_vars; simp only [Memory.get?]; split <;> rfl
      · simp only [Memory.get?, ih]
        by_cases h : x = k <;> by_cases h' : x = a <;> simp_all

/-- Reading after writing bytes at ascending addresses. -/
theorem Memory.get?_setBytes (bs : List Byte) : ∀ (m : Memory) (a x : Nat),
    (m.setBytes a bs).get? x = if a ≤ x ∧ x < a + bs.length then bs[x - a]? else m.get? x := by
  induction bs with
  | nil => intro m a x; simp [Memory.setBytes]
  | cons b r ih =>
    intro m a x
    simp only [Memory.setBytes, ih, Memory.get?_set, List.length_cons]
    by_cases h : x = a
    · subst h; simp
    · by_cases h2 : a + 1 ≤ x ∧ x < a + 1 + r.length
      · have e : x - a = (x - (a + 1)) + 1 := by omega
        have h3 : a ≤ x ∧ x < a + (r.length + 1) := by omega
        rw [if_pos h2, if_pos h3, e, List.getElem?_cons_succ]
      · have h3 : ¬ (a ≤ x ∧ x < a + (r.length + 1)) := by omega
        rw [if_neg h2, if_neg h3, if_neg h]

/-- Every address of a memory after a write is the written one or an old one. -/
theorem Memory.mem_set (m : Memory) (a : Nat) (b : Byte) : ∀ e ∈ m.set a b, e.1 = a ∨ e ∈ m := by
  induction m with
  | nil => intro e h; simp only [Memory.set, List.mem_singleton] at h; simp [h]
  | cons c r ih =>
    obtain ⟨k, v⟩ := c
    intro e h
    simp only [Memory.set] at h
    split at h
    · simp only [List.mem_cons] at h ⊢; rcases h with h | h | h <;> simp [h]
    · split at h
      · simp only [List.mem_cons] at h ⊢; rcases h with h | h <;> simp [h]
      · simp only [List.mem_cons] at h ⊢
        rcases h with h | h
        · simp [h]
        · rcases ih e h with h | h <;> simp [h]

/-- Writing a byte keeps the canonical form. -/
theorem Memory.wf_set (m : Memory) (a : Nat) (b : Byte) (h : m.wf = true) : (m.set a b).wf = true := by
  simp only [Memory.wf, decide_eq_true_eq] at h ⊢
  induction m with
  | nil => simp [Memory.set]
  | cons c r ih =>
    obtain ⟨k, v⟩ := c
    rw [List.pairwise_cons] at h
    simp only [Memory.set]
    split
    · rename_i hlt
      rw [List.pairwise_cons, List.pairwise_cons]
      refine ⟨fun e he => ?_, h⟩
      rcases List.mem_cons.1 he with rfl | he
      · exact hlt
      · exact Nat.lt_trans hlt (h.1 e he)
    · split
      · subst_vars; exact List.pairwise_cons.2 h
      · rename_i h1 h2
        refine List.pairwise_cons.2 ⟨fun e he => ?_, ih h.2⟩
        rcases Memory.mem_set r a b e he with he | he
        · simp only [he]; omega
        · exact h.1 e he

theorem Memory.wf_setBytes (bs : List Byte) : ∀ (m : Memory) (a : Nat), m.wf = true → (m.setBytes a bs).wf = true := by
  induction bs with
  | nil => intro m a h; exact h
  | cons b r ih => intro m a h; exact ih _ _ (m.wf_set a b h)

@[simp] theorem mixed_length (old : Nat → Byte) (bs : List Byte) : ∀ n a : Nat, (mixed n old a bs).length = bs.length := by
  induction bs with
  | nil => intro n a; rfl
  | cons b r ih => intro n a; simp [mixed, ih]

/-- Each byte of a write that met an error is the old or the new one (U40). -/
theorem mixed_getElem? (old : Nat → Byte) (bs : List Byte) : ∀ n a i : Nat, i < bs.length →
    (mixed n old a bs)[i]? = some (old (a + i)) ∨ (mixed n old a bs)[i]? = bs[i]? := by
  induction bs with
  | nil => intro n a i h; simp at h
  | cons b r ih =>
    intro n a i h
    cases i with
    | zero => simp only [mixed, List.getElem?_cons_zero, Nat.add_zero]; split <;> simp
    | succ i =>
      simp only [mixed, List.getElem?_cons_succ]
      rw [show a + (i + 1) = a + 1 + i by omega]
      exact ih (n + 1) (a + 1) i (by simpa using h)

theorem Memory.wf_mixBytes (bs : List Byte) : ∀ (m : Memory) (n a : Nat), m.wf = true → (m.mixBytes n a bs).wf = true := by
  induction bs with
  | nil => intro m n a h; exact h
  | cons b r ih =>
    intro m n a h
    simp only [Memory.mixBytes]
    split
    · exact ih _ _ _ (m.wf_set a b h)
    · exact ih _ _ _ h

/-- The memories of reset are canonical. -/
theorem reset_memories_wf : State.reset.itcm.wf = true ∧ State.reset.dtcm.wf = true ∧ State.reset.ahb.wf = true :=
  ⟨rfl, rfl, rfl⟩

/-! ### Words as bytes -/

@[simp] theorem wordBytes_length (n : Nat) : ∀ w : Word, (wordBytes w n).length = n := by
  induction n with
  | zero => intro w; rfl
  | succ n ih => intro w; simp [wordBytes, ih]

theorem byteAt_shift (w : Word) (i : Nat) : byteAt (w >>> 8) i = byteAt w (i + 1) := by
  unfold byteAt
  ext j hj
  simp only [BitVec.getElem_extractLsb', BitVec.getLsbD_ushiftRight]
  congr 1
  omega

/-- The bytes of a word, least significant first. -/
theorem wordBytes_getElem? (n : Nat) : ∀ (w : Word) (i : Nat),
    (wordBytes w n)[i]? = if i < n then some (byteAt w i) else none := by
  induction n with
  | zero => intro w i; simp [wordBytes]
  | succ n ih =>
    intro w i
    cases i with
    | zero =>
      simp only [wordBytes, List.getElem?_cons_zero, Nat.zero_lt_succ, if_true]
      congr 1
    | succ i =>
      simp only [wordBytes, List.getElem?_cons_succ, ih, byteAt_shift]
      simp

/-! ### The TCM write buffers -/

/-- What a buffered byte is after a push: the new entry's, else the old buffer's. -/
theorem bufferByte_append (l : List TcmEntry) (e : TcmEntry) (o : Nat) :
    bufferByte (l ++ [e]) o = ((e.byte? o).or (bufferByte l o)) := by
  induction l with
  | nil => simp only [List.nil_append, bufferByte]; cases e.byte? o <;> rfl
  | cons c r ih =>
    simp only [List.cons_append, bufferByte, ih]
    cases e.byte? o <;> simp

/-- A byte store after an entry of a TCM write buffer is written into it. -/
theorem Memory.get?_entry (m : Memory) (e : TcmEntry) (o : Nat) :
    (m.setBytes e.off (wordBytes e.data e.size)).get? o = ((e.byte? o).or (m.get? o)) := by
  rw [Memory.get?_setBytes, wordBytes_length]
  unfold TcmEntry.byte?
  by_cases h : e.off ≤ o ∧ o < e.off + e.size
  · have h2 : o - e.off < e.size := by omega
    rw [if_pos h, if_pos h, wordBytes_getElem?, if_pos h2]
    rfl
  · rw [if_neg h, if_neg h]; rfl

/-- Everything that a write to the RAM of a TCM can do (R128, R143, U40): it puts as many bytes into that RAM, all new if it meets no
error, else each the old or the new one, and draws free values only then. -/
theorem State.putRam_cases (s : State) (t : Tcm) (o n : Nat) (v : Word) :
    (s.tcmWriteError t o = false ∧ s.putRam t o n v = s.setRam t ((s.ram t).setBytes o (wordBytes v n))) ∨
    (s.tcmWriteError t o = true ∧ ∃ bs : List Byte, bs.length = n ∧
      s.putRam t o n v = { s.setRam t ((s.ram t).setBytes o bs) with free := s.free + n } ∧
      ∀ i < n, bs[i]? = some (s.ramByte t (o + i)) ∨ bs[i]? = some (Machine.byteAt v i)) := by
  unfold State.putRam
  cases h : s.tcmWriteError t o with
  | false => exact .inl ⟨rfl, rfl⟩
  | true =>
    refine .inr ⟨rfl, _, by simp, rfl, fun i hi => ?_⟩
    have hm := mixed_getElem? (s.ramByte t) (wordBytes v n) s.free o i (by simpa using hi)
    rwa [wordBytes_getElem?, if_pos hi] at hm

/-- A write to the RAM of a TCM that meets no error. -/
theorem State.putRam_ok (s : State) (t : Tcm) (o n : Nat) (v : Word) (h : s.tcmWriteError t o = false) :
    s.putRam t o n v = s.setRam t ((s.ram t).setBytes o (wordBytes v n)) := by simp [State.putRam, h]

/-- What meets an error depends on the environment's lists and the parameters alone. -/
@[simp] theorem State.tcmWriteError_setTcmWB (s : State) (t u : Tcm) (l : List TcmEntry) (o : Nat) :
    (s.setTcmWB t l).tcmWriteError u o = s.tcmWriteError u o := by cases t <;> cases u <;> rfl

@[simp] theorem State.tcmWriteError_setRam (s : State) (t u : Tcm) (m : Memory) (o : Nat) :
    (s.setRam t m).tcmWriteError u o = s.tcmWriteError u o := by cases t <;> cases u <;> rfl

/-- An entry that is written into the RAM without an error is seen there as it was in the buffer before the entries `r` (R128, R129). -/
theorem State.tcmByte_putEntry (s : State) (t u : Tcm) (e : TcmEntry) (r : List TcmEntry) (o : Nat)
    (he : s.tcmWriteError t e.off = false) :
    ((s.setTcmWB t r).putRam t e.off e.size e.data).tcmByte u o = (s.setTcmWB t (e :: r)).tcmByte u o := by
  rw [State.putRam_ok _ _ _ _ _ (by simpa using he)]
  unfold State.tcmByte State.ramByte
  by_cases hu : u = t
  · subst hu
    simp only [State.tcmWB_setRam, State.tcmWB_setTcmWB, State.ram_setRam, State.ram_setTcmWB, if_true, Memory.get?_entry,
      bufferByte]
    cases bufferByte r o <;> cases e.byte? o <;> rfl
  · simp [hu]

/-- Replacing a write buffer by itself. -/
@[simp] theorem State.setTcmWB_self (s : State) (t : Tcm) : s.setTcmWB t (s.tcmWB t) = s := by cases t <;> rfl

/-- Draining the oldest entry of a clean TCM write buffer changes no byte that the core reads (R128, R129). -/
theorem State.tcmByte_drainTcm (s : State) (t u : Tcm) (o : Nat) (hc : s.CleanTcm t) :
    (s.drainTcm t).tcmByte u o = s.tcmByte u o := by
  unfold State.drainTcm
  cases h : s.tcmWB t with
  | nil => rfl
  | cons e r =>
    dsimp only
    rw [State.tcmByte_putEntry s t u e r o (hc e (by simp [h])), ← h, State.setTcmWB_self]

/-- Emptying a clean TCM write buffer changes no byte that the core reads (R128 to R130). -/
theorem State.tcmByte_drainTcmAll (s : State) (t u : Tcm) (o : Nat) (hc : s.CleanTcm t) :
    (s.drainTcmAll t).tcmByte u o = s.tcmByte u o := by
  have key : ∀ (l : List TcmEntry) (s0 : State), (∀ e ∈ l, s0.tcmWriteError t e.off = false) → s0.tcmWB t = [] →
      (l.foldl (fun s e => s.putRam t e.off e.size e.data) s0).tcmByte u o = (s0.setTcmWB t l).tcmByte u o := by
    intro l
    induction l with
    | nil =>
      intro s0 _ h0
      show s0.tcmByte u o = (s0.setTcmWB t []).tcmByte u o
      rw [← h0, State.setTcmWB_self]
    | cons e r ih =>
      intro s0 hl h0
      have he := hl e (List.mem_cons_self ..)
      have hp := State.putRam_ok s0 t e.off e.size e.data he
      have hq := State.tcmByte_putEntry s0 t u e r o he
      rw [State.putRam_ok _ _ _ _ _ (by simpa using he)] at hq
      rw [List.foldl_cons, hp, ih _ (fun x hx => by simpa using hl x (List.mem_cons_of_mem _ hx)) (by simpa using h0), ← hq]
      cases t <;> rfl
  unfold State.drainTcmAll
  rw [key _ _ (fun e he => by simpa using hc e he) (by simp)]
  cases t <;> rfl

/-- A store that enters a clean TCM write buffer: its bytes are seen at once, the others stay (R128, R129). -/
theorem State.tcmByte_pushTcm (s : State) (t u : Tcm) (e : TcmEntry) (o : Nat) (hc : s.CleanTcm t) :
    (s.pushTcm t e).tcmByte u o = if u = t then (e.byte? o).getD (s.tcmByte t o) else s.tcmByte u o := by
  have key : ∀ s1 : State, (s1.setTcmWB t (s1.tcmWB t ++ [e])).tcmByte u o =
      if u = t then (e.byte? o).getD (s1.tcmByte t o) else s1.tcmByte u o := by
    intro s1
    unfold State.tcmByte State.ramByte
    by_cases hu : u = t
    · subst hu
      simp only [State.tcmWB_setTcmWB, State.ram_setTcmWB, if_true, bufferByte_append]
      cases e.byte? o <;> rfl
    · simp [hu]
  unfold State.pushTcm
  dsimp only
  rw [key]
  by_cases hl : 2 ≤ (s.tcmWB t).length
  · simp only [if_pos hl, State.tcmByte_drainTcm _ _ _ _ hc]
  · simp only [if_neg hl]

/-! ### The AHB write buffer -/

theorem ahbBufferByte_append (l : List AhbEntry) (e : AhbEntry) (a : Nat) :
    ahbBufferByte (l ++ [e]) a = ((e.byte? a).or (ahbBufferByte l a)) := by
  induction l with
  | nil => simp only [List.nil_append, ahbBufferByte]; cases e.byte? a <;> rfl
  | cons c r ih =>
    simp only [List.cons_append, ahbBufferByte, ih]
    cases e.byte? a <;> simp

theorem Memory.get?_ahbEntry (m : Memory) (e : AhbEntry) (a : Nat) :
    (m.setBytes e.addr (wordBytes e.data e.size)).get? a = ((e.byte? a).or (m.get? a)) := by
  rw [Memory.get?_setBytes, wordBytes_length]
  unfold AhbEntry.byte?
  by_cases h : e.addr ≤ a ∧ a < e.addr + e.size
  · have h2 : a - e.addr < e.size := by omega
    rw [if_pos h, if_pos h, wordBytes_getElem?, if_pos h2]
    rfl
  · rw [if_neg h, if_neg h]; rfl

/-- A write that arrives on the AHB without an error. -/
theorem State.putAhb_ok (s : State) (k : AhbKind) (a n : Nat) (v : Word) (priv : Bool) (h : s.ahbError k a n priv = false) :
    s.putAhb k a n v priv = { s with ahb := s.ahb.setBytes a (wordBytes v n) } := by
  simp [State.putAhb, h]

/-- The error responses do not depend on memory or the buffers. -/
theorem State.ahbError_congr (s t : State) (h : t.ahbErrors = s.ahbErrors) (k : AhbKind) (a n : Nat) (priv : Bool) :
    t.ahbError k a n priv = s.ahbError k a n priv := by
  simp [State.ahbError, h]

/-- Draining the oldest word of a clean AHB write buffer changes no byte that loads see, and leaves it clean (R122). -/
theorem State.seen_drainAhb (s : State) (h : s.CleanAhb) (q : Place) : s.drainAhb.seen q = s.seen q ∧ s.drainAhb.CleanAhb := by
  unfold State.drainAhb
  cases hw : s.ahbWB with
  | nil => exact ⟨rfl, h⟩
  | cons e r =>
    have he : s.ahbError .buffered e.addr e.size e.priv = false := h e (by simp [hw])
    have he' : State.ahbError { s with ahbWB := r } .buffered e.addr e.size e.priv = false := he
    dsimp only
    rw [State.putAhb_ok _ _ _ _ _ _ he']
    refine ⟨?_, fun x hx => h x (by rw [hw]; exact List.mem_cons_of_mem _ hx)⟩
    obtain ⟨p, a⟩ := q
    cases p with
    | tcm t => cases t <;> rfl
    | ahb =>
      simp only [State.seen, State.ahbByte, Memory.get?_ahbEntry, hw, ahbBufferByte]
      cases ahbBufferByte r a <;> cases e.byte? a <;> rfl

/-- Emptying a clean AHB write buffer changes no byte that loads see (R123, R124). -/
theorem State.seen_drainAhbAll (s : State) (h : s.CleanAhb) (q : Place) : s.drainAhbAll.seen q = s.seen q := by
  have key : ∀ (l : List AhbEntry) (s0 : State), (∀ e ∈ l, s0.ahbError .buffered e.addr e.size e.priv = false) →
      s0.ahbWB = [] →
      (l.foldl (fun s e => s.putAhb .buffered e.addr e.size e.data e.priv) s0).seen q = State.seen { s0 with ahbWB := l } q := by
    intro l
    induction l with
    | nil =>
      intro s0 _ h0
      show s0.seen q = State.seen { s0 with ahbWB := [] } q
      rw [← h0]
    | cons e r ih =>
      intro s0 hl h0
      rw [List.foldl_cons, State.putAhb_ok _ _ _ _ _ _ (hl e (List.mem_cons_self ..))]
      refine (ih { s0 with ahb := s0.ahb.setBytes e.addr (wordBytes e.data e.size) }
        (fun x hx => hl x (List.mem_cons_of_mem _ hx)) h0).trans ?_
      · obtain ⟨p, a⟩ := q
        cases p with
        | tcm t => cases t <;> rfl
        | ahb =>
          simp only [State.seen, State.ahbByte, Memory.get?_ahbEntry, ahbBufferByte]
          cases ahbBufferByte r a <;> cases e.byte? a <;> rfl
  unfold State.drainAhbAll
  rw [key s.ahbWB { s with ahbWB := [] } h rfl]

/-- A store that enters the AHB write buffer: its bytes are seen at once, the others stay (R121, R124). -/
theorem State.seen_append (s : State) (e : AhbEntry) (q : Place) :
    State.seen { s with ahbWB := s.ahbWB ++ [e] } q =
      if q.1 = .ahb then (e.byte? q.2).getD (s.seen q) else s.seen q := by
  obtain ⟨p, a⟩ := q
  cases p with
  | tcm t => cases t <;> rfl
  | ahb =>
    simp only [State.seen, ahbBufferByte_append, if_true]
    cases e.byte? a <;> rfl

/-- Waiting for room in a clean AHB write buffer changes no byte that loads see (R121). -/
theorem State.seen_waitAhb (first : Bool) (q : Place) (n : Nat) : ∀ s : State, s.CleanAhb →
    (s.waitAhb first n).seen q = s.seen q := by
  induction n with
  | zero => intro s _; rfl
  | succ n ih =>
    intro s h
    simp only [State.waitAhb]
    split
    · rfl
    · rw [ih _ (s.seen_drainAhb h q).2, (s.seen_drainAhb h q).1]

/-- A buffered store is seen at once, and nothing else changes for loads (R121, R124). -/
theorem State.seen_pushAhb (s : State) (h : s.CleanAhb) (e : AhbEntry) (q : Place) :
    (s.pushAhb e).seen q = if q.1 = .ahb then (e.byte? q.2).getD (s.seen q) else s.seen q := by
  unfold State.pushAhb
  dsimp only
  rw [State.seen_append, State.seen_waitAhb _ _ _ _ h]

/-! ### The canonical form is kept -/

/-- The memories of `t` are canonical if those of `s` are. -/
def KeepsWf (s t : State) : Prop := s.MemWf → t.MemWf

theorem KeepsWf.refl (s : State) : KeepsWf s s := fun h => h

theorem KeepsWf.trans {s t u : State} (h : KeepsWf s t) (k : KeepsWf t u) : KeepsWf s u := fun x => k (h x)

/-- A change that leaves the three memories alone keeps the form. -/
theorem KeepsWf.of_eq {s t : State} (h1 : t.itcm = s.itcm) (h2 : t.dtcm = s.dtcm) (h3 : t.ahb = s.ahb) : KeepsWf s t := by
  intro h
  simpa [State.MemWf, h1, h2, h3] using h

theorem keepsWf_setRam (s : State) (t : Tcm) (m : Memory) (h : (s.ram t).wf = true → m.wf = true) :
    KeepsWf s (s.setRam t m) := by
  intro hs
  cases t
  · exact ⟨h hs.1, hs.2⟩
  · exact ⟨hs.1, h hs.2.1, hs.2.2⟩

theorem keepsWf_putRam (s : State) (t : Tcm) (o n : Nat) (v : Word) : KeepsWf s (s.putRam t o n v) := by
  rcases State.putRam_cases s t o n v with ⟨-, h⟩ | ⟨-, bs, -, h, -⟩ <;> rw [h]
  · exact keepsWf_setRam s t _ (Memory.wf_setBytes _ _ _)
  · exact keepsWf_setRam s t _ (Memory.wf_setBytes _ _ _)

theorem keepsWf_setTcmWB (s : State) (t : Tcm) (l : List TcmEntry) : KeepsWf s (s.setTcmWB t l) := by
  cases t <;> exact KeepsWf.refl s

theorem keepsWf_drainTcm (s : State) (t : Tcm) : KeepsWf s (s.drainTcm t) := by
  unfold State.drainTcm
  cases s.tcmWB t with
  | nil => exact KeepsWf.refl s
  | cons e r => exact (keepsWf_setTcmWB s t r).trans (keepsWf_putRam _ _ _ _ _)

theorem keepsWf_drainTcmAll (s : State) (t : Tcm) : KeepsWf s (s.drainTcmAll t) := by
  have fold : ∀ (l : List TcmEntry) (s0 : State), KeepsWf s0 (l.foldl (fun s e => s.putRam t e.off e.size e.data) s0) := by
    intro l
    induction l with
    | nil => intro s0; exact KeepsWf.refl s0
    | cons e r ih => intro s0; exact (keepsWf_putRam s0 _ _ _ _).trans (ih _)
  exact (keepsWf_setTcmWB s t []).trans (fold _ _)

theorem keepsWf_orderDrain (s : State) (t : Tcm) : KeepsWf s (s.orderDrain t) := by
  unfold State.orderDrain
  split
  · exact keepsWf_drainTcmAll s t
  · exact KeepsWf.refl s

theorem keepsWf_pushTcm (s : State) (t : Tcm) (e : TcmEntry) : KeepsWf s (s.pushTcm t e) := by
  unfold State.pushTcm
  dsimp only
  split
  · exact (keepsWf_drainTcm s t).trans (keepsWf_setTcmWB _ _ _)
  · exact keepsWf_setTcmWB _ _ _

theorem keepsWf_putAhb (s : State) (k : AhbKind) (a n : Nat) (v : Word) (priv : Bool) : KeepsWf s (s.putAhb k a n v priv) := by
  intro hs
  unfold State.putAhb
  split
  · split
    · exact ⟨hs.1, hs.2.1, Memory.wf_mixBytes _ _ _ _ hs.2.2⟩
    · exact ⟨hs.1, hs.2.1, Memory.wf_setBytes _ _ _ hs.2.2⟩
  · exact ⟨hs.1, hs.2.1, Memory.wf_setBytes _ _ _ hs.2.2⟩

theorem keepsWf_drainAhb (s : State) : KeepsWf s s.drainAhb := by
  unfold State.drainAhb
  cases s.ahbWB with
  | nil => exact KeepsWf.refl s
  | cons e r => exact KeepsWf.trans (t := { s with ahbWB := r }) (KeepsWf.refl s) (keepsWf_putAhb _ _ _ _ _ _)

theorem keepsWf_drainAhbAll (s : State) : KeepsWf s s.drainAhbAll := by
  have fold : ∀ (l : List AhbEntry) (s0 : State),
      KeepsWf s0 (l.foldl (fun s e => s.putAhb .buffered e.addr e.size e.data e.priv) s0) := by
    intro l
    induction l with
    | nil => intro s0; exact KeepsWf.refl s0
    | cons e r ih => intro s0; exact (keepsWf_putAhb s0 _ _ _ _ _).trans (ih _)
  exact KeepsWf.trans (t := { s with ahbWB := [] }) (KeepsWf.refl s) (fold _ _)

theorem keepsWf_waitAhb (first : Bool) (n : Nat) : ∀ s : State, KeepsWf s (s.waitAhb first n) := by
  induction n with
  | zero => intro s; exact KeepsWf.refl s
  | succ n ih =>
    intro s
    simp only [State.waitAhb]
    split
    · exact KeepsWf.refl s
    · exact (keepsWf_drainAhb s).trans (ih _)

theorem keepsWf_pushAhb (s : State) (e : AhbEntry) : KeepsWf s (s.pushAhb e) :=
  KeepsWf.trans (keepsWf_waitAhb e.first s.ahbWB.length s) (KeepsWf.refl _)

theorem keepsWf_drainAll (s : State) : KeepsWf s s.drainAll :=
  ((keepsWf_drainAhbAll s).trans (keepsWf_drainTcmAll _ _)).trans (keepsWf_drainTcmAll _ _)

end Sys2Proof.Machine
end

