-- ==== Sys2Proof/Laws/Ops.lean ====
section
/-! SUPPORT. For each shared operation, once, everything it can do: a caller cites these and does not unfold the operation. -/

namespace Sys2Proof.Machine

/-! ### Frames of an instruction -/

theorem next_inj {s t : State} (h : (Host.Outcome.next s : Result) = .next t) : s = t := by injection h

/-- A conditional instruction goes on by its own meaning, or only moves the pc. -/
theorem conditional_cases {c : Cond} {s t : State} {k : Result} (h : conditional c s k = .next t) :
    (s.cpsr.passes c = true ∧ k = .next t) ∨ (s.cpsr.passes c = false ∧ t = s.advance) := by
  unfold conditional at h
  cases hc : s.cpsr.passes c
  · rw [hc] at h; exact .inr ⟨rfl, (next_inj h).symm⟩
  · rw [hc] at h; exact .inl ⟨rfl, h⟩

@[simp] theorem conditional_pass {c : Cond} {s : State} {k : Result} (h : s.cpsr.passes c = true) :
    conditional c s k = k := by simp [conditional, h]

@[simp] theorem conditional_fail {c : Cond} {s : State} {k : Result} (h : s.cpsr.passes c = false) :
    conditional c s k = .next s.advance := by simp [conditional, h]

/-- A form that is not UNPREDICTABLE has its meaning. -/
@[simp] theorem guarded_none (k : Result) : guarded none k = k := rfl

@[simp] theorem guarded_some (u : Unpred) (k : Result) : guarded (some u) k = .refused (.unpredictable u) := rfl

theorem guarded_cases {o : Option Unpred} {k : Result} {t : State} (h : guarded o k = .next t) :
    o = none ∧ k = .next t := by
  cases o with
  | none => exact ⟨rfl, h⟩
  | some u => cases h

/-! ### The pc -/

/-- What BX, BLX(2) and a load of the pc with LT = 0 leave. -/
theorem writePcExchange_cases {v : Word} {s t : State} (h : writePcExchange v s = .next t) :
    v.extractLsb' 0 2 ≠ 0b10#2 ∧ t = (s.setT (v.getLsbD 0)).branchTo (clearLow 1 v) := by
  unfold writePcExchange at h
  split at h
  · cases h
  · exact ⟨‹_›, (next_inj h).symm⟩

/-- What a load of the pc leaves. -/
theorem loadPc_cases {v : Word} {s t : State} (h : loadPc v s = .next t) :
    (s.ctl.lt = false ∧ v.extractLsb' 0 2 ≠ 0b10#2 ∧ t = (s.setT (v.getLsbD 0)).branchTo (clearLow 1 v)) ∨
      (s.ctl.lt = true ∧ t = s.branchTo (if s.cpsr.t then clearLow 1 v else clearLow 2 v)) := by
  unfold loadPc at h
  cases hl : s.ctl.lt
  · simp only [hl, Bool.not_false, if_true] at h
    exact .inl ⟨rfl, writePcExchange_cases h⟩
  · simp only [hl, Bool.not_true, Bool.false_eq_true, if_false] at h
    exact .inr ⟨rfl, (next_inj h).symm⟩

/-- What a data-processing result in r15 leaves. -/
theorem writePcArm_cases {v : Word} {s t : State} (h : writePcArm v s = .next t) :
    v.extractLsb' 0 2 = 0#2 ∧ t = s.branchTo v := by
  unfold writePcArm at h
  split at h
  · exact ⟨‹_›, (next_inj h).symm⟩
  · cases h

/-! ### Exceptions -/

/-- What an exception return leaves. -/
theorem exceptionReturn_cases {v : Word} {s t : State} (h : exceptionReturn v s = .next t) :
    ∃ e, excMode s.cpsr.m = some e ∧
      (((s.spsr e).t = true ∧ t = (s.putCpsr (s.spsr e)).branchTo (clearLow 1 v)) ∨
        ((s.spsr e).t = false ∧ v.extractLsb' 0 2 = 0#2 ∧ t = (s.putCpsr (s.spsr e)).branchTo v)) := by
  unfold exceptionReturn at h
  cases hm : excMode s.cpsr.m with
  | none => rw [hm] at h; cases h
  | some e =>
    rw [hm] at h
    refine ⟨e, rfl, ?_⟩
    dsimp only at h
    cases ht : (s.spsr e).t
    · rw [ht] at h
      simp only [Bool.false_eq_true, if_false] at h
      split at h
      · exact .inr ⟨rfl, ‹_›, (next_inj h).symm⟩
      · cases h
    · rw [ht] at h
      exact .inl ⟨rfl, (next_inj h).symm⟩

/-- Taking an exception, field by field. -/
theorem takeException_eq (s : State) (e : Exc) :
    s.takeException e = { s with
      regs := (s.setPhys e.mode.linkReg (s.pc + e.linkOffset s.cpsr.t)).regs
      spsrs := (s.setSpsr e.mode s.cpsr).spsrs
      cpsr := { s.cpsr with m := e.mode.bits, t := false, i := true, f := s.cpsr.f || e == .fiq }
      pc := s.vectorBase + e.offset, nonseq := true, pipe := afterTransfer s.pipe, pastTop := false, oldRoutes := []
      bankHazard := false } := by
  cases e <;> rfl

/-- A watchpoint halts a core that is not halted, with r15 five instructions on. -/
theorem enterWatched_eq {s : State} (h : s.dbg.halted = false) :
    s.enterWatched = s.haltAt (s.pc + BitVec.ofNat 32 (5 * s.instrLen)) := by
  rw [State.enterWatched, h]
  rfl

/-- A Data Abort is the exception, then debug state if a halt-mode watchpoint is latched; a halted core ignores it. -/
theorem dataAbort_cases (s : State) :
    (s.dbg.halted = true ∧ s.dataAbort = s.advance) ∨
      (s.dbg.halted = false ∧ (s.dbg.wptLatch && !s.dbg.monitor) = false ∧ s.dataAbort = s.takeException .dataAbort) ∨
      (s.dbg.halted = false ∧ (s.dbg.wptLatch && !s.dbg.monitor) = true ∧
        s.dataAbort = (s.takeException .dataAbort).haltAt (s.vectorBase + 0x10 + 20)) := by
  have h : (s.takeException .dataAbort).dbg = s.dbg := rfl
  unfold State.dataAbort
  dsimp only
  rw [h]
  cases hh : s.dbg.halted
  · cases s.dbg.wptLatch && !s.dbg.monitor
    · exact .inr (.inl ⟨rfl, rfl, rfl⟩)
    · exact .inr (.inr ⟨rfl, rfl, enterWatched_eq hh⟩)
  · exact .inl ⟨rfl, rfl⟩

/-- The mode an exception enters is legal, and the vector is a word address. -/
theorem exc_mode_legal (e : Exc) : legalMode e.mode.bits = true := by cases e <;> rfl

theorem vector_aligned (s : State) (e : Exc) : (s.vectorBase + e.offset).toNat % 4 = 0 := by
  unfold State.vectorBase
  cases s.ctl.v <;> cases e <;> rfl

/-! ### Data accesses -/

/-- What a data access, aborted or not, can change: the memories and their buffers, the counter of free values, the watchpoint
matches to come and the latch (not in monitor debug-mode), and DbgAbt. The canonical form of memory is kept. -/
def AccessFrame (s t : State) : Prop :=
  t = { s with itcm := t.itcm, dtcm := t.dtcm, ahb := t.ahb, itcmWB := t.itcmWB, dtcmWB := t.dtcmWB, ahbWB := t.ahbWB,
               free := t.free, dbg := t.dbg, dcc := t.dcc } ∧
    t.dbg = { s.dbg with wptMatch := t.dbg.wptMatch, wptLatch := t.dbg.wptLatch } ∧
    (s.dbg.monitor = true → t.dbg.wptLatch = s.dbg.wptLatch) ∧
    t.dcc = { s.dcc with dbgAbt := t.dcc.dbgAbt } ∧ KeepsWf s t

theorem AccessFrame.refl (s : State) : AccessFrame s s := ⟨rfl, rfl, fun _ => rfl, rfl, KeepsWf.refl s⟩

theorem AccessFrame.trans {s t u : State} (h : AccessFrame s t) (k : AccessFrame t u) : AccessFrame s u := by
  obtain ⟨h1, h2, h3, h4, h5⟩ := h
  obtain ⟨k1, k2, k3, k4, k5⟩ := k
  have hm : t.dbg.monitor = s.dbg.monitor := by rw [h2]
  refine ⟨?_, ?_, fun hs => ?_, ?_, h5.trans k5⟩
  · rw [k1, h1]
  · rw [k2, h2]
  · rw [k3 (hm.trans hs), h3 hs]
  · rw [k4, h4]

/-- The outcome of an access that can only change what `AccessFrame` says. -/
def Acc.Framed {α : Type} (s : State) : Acc α → Prop
  | .ok _ t => AccessFrame s t
  | .abort t => AccessFrame s t
  | .fault _ => True
  | .refused _ => True

theorem accessFrame_setTcm (s t : State) (h : t = { s with itcm := t.itcm, dtcm := t.dtcm, itcmWB := t.itcmWB, dtcmWB := t.dtcmWB, free := t.free })
    (k : KeepsWf s t) : AccessFrame s t := by
  refine ⟨?_, ?_, fun _ => ?_, ?_, k⟩ <;> rw [h]

theorem accessFrame_setAhb (s t : State) (h : t = { s with ahb := t.ahb, ahbWB := t.ahbWB, free := t.free })
    (k : KeepsWf s t) : AccessFrame s t := by
  refine ⟨?_, ?_, fun _ => ?_, ?_, k⟩ <;> rw [h]

/-- An update of one TCM. -/
def TcmFrame (s t : State) : Prop :=
  t = { s with itcm := t.itcm, dtcm := t.dtcm, itcmWB := t.itcmWB, dtcmWB := t.dtcmWB, free := t.free }

/-- An update of the AHB side. -/
def AhbFrame (s t : State) : Prop := t = { s with ahb := t.ahb, ahbWB := t.ahbWB, free := t.free }

theorem AhbFrame.trans {s t u : State} (h : AhbFrame s t) (k : AhbFrame t u) : AhbFrame s u := by
  unfold AhbFrame at *
  rw [k, h]

theorem TcmFrame.trans {s t u : State} (h : TcmFrame s t) (k : TcmFrame t u) : TcmFrame s u := by
  unfold TcmFrame at *
  rw [k, h]

theorem tcmFrame_setTcmWB (s : State) (t : Tcm) (l : List TcmEntry) : TcmFrame s (s.setTcmWB t l) := by cases t <;> rfl

theorem tcmFrame_putRam (s : State) (t : Tcm) (o n : Nat) (v : Word) : TcmFrame s (s.putRam t o n v) := by
  rcases State.putRam_cases s t o n v with ⟨-, h⟩ | ⟨-, bs, -, h, -⟩ <;> rw [h] <;> cases t <;> rfl

theorem tcmFrame_drainTcm (s : State) (t : Tcm) : TcmFrame s (s.drainTcm t) := by
  unfold State.drainTcm
  cases s.tcmWB t with
  | nil => rfl
  | cons e r => exact (tcmFrame_setTcmWB s t r).trans (tcmFrame_putRam _ _ _ _ _)

theorem tcmFrame_drainTcmAll (s : State) (t : Tcm) : TcmFrame s (s.drainTcmAll t) := by
  have fold : ∀ (l : List TcmEntry) (s0 : State), TcmFrame s0 (l.foldl (fun s e => s.putRam t e.off e.size e.data) s0) := by
    intro l
    induction l with
    | nil => intro s0; rfl
    | cons e r ih => intro s0; exact (tcmFrame_putRam s0 _ _ _ _).trans (ih _)
  exact (tcmFrame_setTcmWB s t []).trans (fold _ _)

theorem tcmFrame_orderDrain (s : State) (t : Tcm) : TcmFrame s (s.orderDrain t) := by
  unfold State.orderDrain
  split
  · exact tcmFrame_drainTcmAll s t
  · rfl

theorem tcmFrame_pushTcm (s : State) (t : Tcm) (e : TcmEntry) : TcmFrame s (s.pushTcm t e) := by
  unfold State.pushTcm
  dsimp only
  split
  · exact (tcmFrame_drainTcm s t).trans (tcmFrame_setTcmWB _ _ _)
  · exact tcmFrame_setTcmWB s _ _

theorem ahbFrame_putAhb (s : State) (k : AhbKind) (a n : Nat) (v : Word) (priv : Bool) :
    AhbFrame s (s.putAhb k a n v priv) := by
  unfold State.putAhb
  split
  · split <;> rfl
  · rfl

theorem ahbFrame_drainAhb (s : State) : AhbFrame s s.drainAhb := by
  unfold State.drainAhb
  cases s.ahbWB with
  | nil => rfl
  | cons e r => exact AhbFrame.trans (t := { s with ahbWB := r }) rfl (ahbFrame_putAhb _ _ _ _ _ _)

theorem ahbFrame_drainAhbAll (s : State) : AhbFrame s s.drainAhbAll := by
  have fold : ∀ (l : List AhbEntry) (s0 : State),
      AhbFrame s0 (l.foldl (fun s e => s.putAhb .buffered e.addr e.size e.data e.priv) s0) := by
    intro l
    induction l with
    | nil => intro s0; rfl
    | cons e r ih => intro s0; exact (ahbFrame_putAhb s0 _ _ _ _ _).trans (ih _)
  exact AhbFrame.trans (t := { s with ahbWB := [] }) rfl (fold _ _)

theorem ahbFrame_waitAhb (first : Bool) (n : Nat) : ∀ s : State, AhbFrame s (s.waitAhb first n) := by
  induction n with
  | zero => intro s; rfl
  | succ n ih =>
    intro s
    simp only [State.waitAhb]
    split
    · rfl
    · exact (ahbFrame_drainAhb s).trans (ih _)

theorem ahbFrame_pushAhb (s : State) (e : AhbEntry) : AhbFrame s (s.pushAhb e) :=
  AhbFrame.trans (ahbFrame_waitAhb e.first s.ahbWB.length s) rfl

/-- A read changes only what `AccessFrame` says. -/
theorem readData_framed (size : Nat) (priv swap : Bool) (a : Word) (s : State) : (readData size priv swap a s).Framed s := by
  unfold readData
  split
  · rename_i t _
    split
    · trivial
    · dsimp only
      have hf := accessFrame_setTcm s _ (tcmFrame_orderDrain s t) (keepsWf_orderDrain s t)
      split <;> exact hf
  · dsimp only
    have hf := accessFrame_setAhb s _ (ahbFrame_drainAhbAll s) (keepsWf_drainAhbAll s)
    split <;> exact hf

/-- A write changes only what `AccessFrame` says. -/
theorem writeData_framed (size : Nat) (priv opened swap : Bool) (a v : Word) (s : State) :
    (writeData size priv opened swap a v s).Framed s := by
  unfold writeData
  dsimp only
  split
  · rename_i t _
    split
    · trivial
    · exact accessFrame_setTcm s _ (tcmFrame_pushTcm s t _) (keepsWf_pushTcm s t _)
  · split
    · exact accessFrame_setAhb s _ (ahbFrame_pushAhb s _) (keepsWf_pushAhb s _)
    · have hf := accessFrame_setAhb s _
        ((ahbFrame_drainAhbAll s).trans (ahbFrame_putAhb _ (s.writeKind a swap) _ size (ofBytes (wordBytes v size)) priv))
        ((keepsWf_drainAhbAll s).trans (keepsWf_putAhb _ (s.writeKind a swap) (lane s.ctl.b size (forced size a)) _ _ _))
      split <;> exact hf

theorem accessFrame_latchWatch (s : State) : AccessFrame s s.latchWatch :=
  ⟨rfl, rfl, fun h => by simp [h], rfl, KeepsWf.refl s⟩

theorem accessFrame_popWatch (s : State) : AccessFrame s s.popWatch := ⟨rfl, rfl, fun _ => rfl, rfl, KeepsWf.refl s⟩

theorem accessFrame_setDbgAbt (s : State) : AccessFrame s s.setDbgAbt := ⟨rfl, rfl, fun _ => rfl, rfl, KeepsWf.refl s⟩

theorem accessFrame_free (s : State) (n : Nat) : AccessFrame s { s with free := n } :=
  ⟨rfl, rfl, fun _ => rfl, rfl, KeepsWf.refl s⟩

/-- A framed access after a framed change. -/
theorem Acc.Framed.after {α : Type} {s t : State} {a : Acc α} (h : AccessFrame s t) (k : a.Framed t) : a.Framed s := by
  cases a with
  | ok v u => exact AccessFrame.trans h k
  | abort u => exact AccessFrame.trans h k
  | fault f => trivial
  | refused r => trivial

/-- A data read of an instruction, watchpoints included, changes only what `AccessFrame` says. -/
theorem loadData_framed (size : Nat) (priv swap : Bool) (a : Word) (s : State) : (loadData size priv swap a s).Framed s := by
  unfold loadData
  split
  · exact AccessFrame.refl s
  · split
    · exact readData_framed size priv swap a s
    · split
      · trivial
      · have hr := (readData_framed size priv swap a s.popWatch).after (accessFrame_popWatch s)
        cases h : readData size priv swap a s.popWatch with
        | ok v s1 =>
          rw [h] at hr
          dsimp only
          split
          · exact hr
          · split
            · exact AccessFrame.trans hr (accessFrame_setDbgAbt s1)
            · exact AccessFrame.trans hr (accessFrame_latchWatch s1)
        | abort s1 =>
          rw [h] at hr
          dsimp only
          split
          · exact AccessFrame.trans hr (accessFrame_latchWatch s1)
          · exact hr
        | fault f => trivial
        | refused r => trivial

/-- A data write of an instruction, watchpoints included, changes only what `AccessFrame` says. -/
theorem storeData_framed (size : Nat) (priv opened swap : Bool) (a v : Word) (s : State) :
    (storeData size priv opened swap a v s).Framed s := by
  unfold storeData
  split
  · exact AccessFrame.refl s
  · split
    · exact writeData_framed size priv opened swap a v s
    · split
      · trivial
      · have hr := (writeData_framed size priv opened swap a v s.popWatch).after (accessFrame_popWatch s)
        cases h : writeData size priv opened swap a v s.popWatch with
        | ok b s1 =>
          rw [h] at hr
          dsimp only
          split
          · exact hr
          · split
            · refine AccessFrame.trans (t := if Config.freeBit s1.free then s1 else s.popWatch) ?_ ?_
              · split
                · exact hr
                · exact accessFrame_popWatch s
              · exact (accessFrame_free _ _).trans (accessFrame_setDbgAbt _)
            · exact AccessFrame.trans hr (accessFrame_latchWatch s1)
        | abort s1 =>
          rw [h] at hr
          dsimp only
          split
          · exact AccessFrame.trans hr (accessFrame_latchWatch s1)
          · exact hr
        | fault f => trivial
        | refused r => trivial

/-! ### Transfers between whose accesses other agents act -/

/-- What a transfer of several words can change: what its accesses can, and what the turns of the other agents between them can:
the DMA response, the input pins and the held ETMPROCID, the error maps, the prefetch buffer, the pipeline's words, the list of
those turns. -/
def TransferFrame (s t : State) : Prop :=
  t = { s with itcm := t.itcm, dtcm := t.dtcm, ahb := t.ahb, itcmWB := t.itcmWB, dtcmWB := t.dtcmWB, ahbWB := t.ahbWB,
               free := t.free, dbg := t.dbg, dcc := t.dcc, dmaOut := t.dmaOut, pins := t.pins, etmHeld := t.etmHeld,
               ahbErrors := t.ahbErrors, itcmErrors := t.itcmErrors, dtcmErrors := t.dtcmErrors, ipb := t.ipb,
               ipbNext := t.ipbNext, pipe := t.pipe, inside := t.inside } ∧
    t.dbg = { s.dbg with wptMatch := t.dbg.wptMatch, wptLatch := t.dbg.wptLatch } ∧
    (s.dbg.monitor = true → t.dbg.wptLatch = s.dbg.wptLatch) ∧
    t.dcc = { s.dcc with dbgAbt := t.dcc.dbgAbt } ∧ KeepsWf s t

theorem TransferFrame.refl (s : State) : TransferFrame s s := ⟨rfl, rfl, fun _ => rfl, rfl, KeepsWf.refl s⟩

theorem TransferFrame.trans {s t u : State} (h : TransferFrame s t) (k : TransferFrame t u) : TransferFrame s u := by
  obtain ⟨h1, h2, h3, h4, h5⟩ := h
  obtain ⟨k1, k2, k3, k4, k5⟩ := k
  have hm : t.dbg.monitor = s.dbg.monitor := by rw [h2]
  refine ⟨?_, ?_, fun hs => ?_, ?_, h5.trans k5⟩
  · rw [k1, h1]
  · rw [k2, h2]
  · rw [k3 (hm.trans hs), h3 hs]
  · rw [k4, h4]

/-- A single access is a transfer. -/
theorem AccessFrame.transfer {s t : State} (h : AccessFrame s t) : TransferFrame s t := by
  obtain ⟨h1, h2, h3, h4, h5⟩ := h
  refine ⟨?_, h2, h3, h4, h5⟩
  rw [h1]

/-- A change of the AHB side, of one TCM, or of what only the other agents change. -/
theorem AhbFrame.transfer {s t : State} (h : AhbFrame s t) (k : KeepsWf s t) : TransferFrame s t :=
  (accessFrame_setAhb s t h k).transfer

theorem TcmFrame.transfer {s t : State} (h : TcmFrame s t) (k : KeepsWf s t) : TransferFrame s t :=
  (accessFrame_setTcm s t h k).transfer

/-- A change of the prefetch buffer and the pipeline's words only. -/
theorem transferFrame_fetched (s : State) (l : List IpbEntry) (o : Option Word) (p : List PipeWord) :
    TransferFrame s { s with ipb := l, ipbNext := o, pipe := p } := ⟨rfl, rfl, fun _ => rfl, rfl, KeepsWf.refl s⟩

theorem transferFrame_prefetchAhb (s : State) : TransferFrame s (prefetchAhb s) := by
  unfold prefetchAhb
  cases s.ipbNext with
  | none => exact TransferFrame.refl s
  | some wa =>
    dsimp only
    split
    · exact ((ahbFrame_drainAhbAll s).transfer (keepsWf_drainAhbAll s)).trans (transferFrame_fetched _ _ _ _)
    · exact TransferFrame.refl s

theorem transferFrame_fetchAhead (a : Word) (s : State) : TransferFrame s (fetchAhead a s) := by
  unfold fetchAhead
  dsimp only
  split
  · exact TransferFrame.refl s
  · split
    · split
      · exact TransferFrame.refl s
      · exact ((tcmFrame_orderDrain s .itcm).transfer (keepsWf_orderDrain s .itcm)).trans (transferFrame_fetched _ _ _ _)
    · split
      · exact transferFrame_fetched s _ _ _
      · exact ((ahbFrame_drainAhbAll s).transfer (keepsWf_drainAhbAll s)).trans (transferFrame_fetched _ _ _ _)

/-- A turn of another agent changes only what `TransferFrame` says, and nothing of the core's registers. -/
theorem busTurn_framed {b : BusTurn} {s t : State} (h : busTurn b s = .next t) : TransferFrame s t := by
  cases b with
  | drainAhb => cases h; exact (ahbFrame_drainAhb s).transfer (keepsWf_drainAhb s)
  | drainTcm m => cases h; exact (tcmFrame_drainTcm s m).transfer (keepsWf_drainTcm s m)
  | prefetchAhb => cases h; exact transferFrame_prefetchAhb s
  | fetchAhead a => cases h; exact transferFrame_fetchAhead a s
  | dropWord a => cases h; exact transferFrame_fetched s _ _ _
  | dmaWrite a size data =>
    simp only [busTurn, dmaWrite] at h
    split at h
    · cases h
    · split at h
      · cases h
      · cases h
        have pre : ∀ (k : Nat), TransferFrame s (if dmaTcm a = .itcm then s.dmaTouches k else s) := by
          intro k
          split
          · exact transferFrame_fetched s _ _ _
          · exact TransferFrame.refl s
        exact (pre _).trans ((tcmFrame_putRam _ _ _ _ _).transfer (keepsWf_putRam _ _ _ _ _))
  | dmaRead a =>
    simp only [busTurn, dmaRead] at h
    split at h
    · cases h
    · cases h; exact ⟨rfl, rfl, fun _ => rfl, rfl, KeepsWf.refl s⟩
  | setPins p =>
    simp only [busTurn, setPins] at h
    split at h
    · cases h
    · cases h; exact ⟨rfl, rfl, fun _ => rfl, rfl, KeepsWf.refl s⟩
  | ahbWrite a b => cases h; exact ⟨rfl, rfl, fun _ => rfl, rfl, fun hs => ⟨hs.1, hs.2.1, Memory.wf_set _ _ _ hs.2.2⟩⟩
  | setAhbErrors l => cases h; exact ⟨rfl, rfl, fun _ => rfl, rfl, KeepsWf.refl s⟩
  | setTcmErrors m l => cases m <;> (cases h; exact ⟨rfl, rfl, fun _ => rfl, rfl, KeepsWf.refl s⟩)

/-- The outcome of accesses and turns that can only change what `TransferFrame` says. -/
def Acc.Moved {α : Type} (s : State) : Acc α → Prop
  | .ok _ t => TransferFrame s t
  | .abort t => TransferFrame s t
  | .fault _ => True
  | .refused _ => True

theorem Acc.Framed.moved {α : Type} {s : State} {a : Acc α} (h : a.Framed s) : a.Moved s := by
  cases a with
  | ok v t => exact AccessFrame.transfer h
  | abort t => exact AccessFrame.transfer h
  | fault f => trivial
  | refused r => trivial

/-- Going on after a transfer keeps the frame. -/
theorem Acc.moved_bind {α β : Type} {s : State} {a : Acc α} {k : α → State → Acc β} (h : a.Moved s)
    (hk : ∀ v t, (k v t).Moved t) : (a.bind k).Moved s := by
  cases a with
  | ok v t =>
    have h1 := hk v t
    show (k v t).Moved s
    cases hkt : k v t with
    | ok w u => rw [hkt] at h1; exact TransferFrame.trans h h1
    | abort u => rw [hkt] at h1; exact TransferFrame.trans h h1
    | fault f => trivial
    | refused r => trivial
  | abort t => exact h
  | fault f => trivial
  | refused r => trivial

theorem runTurns_moved (l : List BusTurn) : ∀ s : State, (runTurns l s).Moved s := by
  induction l with
  | nil => intro s; exact TransferFrame.refl s
  | cons b r ih =>
    intro s
    refine Acc.moved_bind ?_ fun _ t => ih t
    cases h : busTurn b s with
    | next t => exact busTurn_framed h
    | fault f => trivial
    | refused x => trivial

/-- The other agents' turns between two accesses change only what `TransferFrame` says. -/
theorem pause_moved (locked : Bool) (s : State) : (s.pause locked).Moved s := by
  unfold State.pause
  cases s.inside with
  | nil => exact TransferFrame.refl s
  | cons l r =>
    have h := runTurns_moved (l.filter fun b => !(locked && b.usesAhb)) { s with inside := r }
    have h0 : TransferFrame s { s with inside := r } := ⟨rfl, rfl, fun _ => rfl, rfl, KeepsWf.refl s⟩
    dsimp only
    cases hr : runTurns (l.filter fun b => !(locked && b.usesAhb)) { s with inside := r } with
    | ok v t => rw [hr] at h; exact h0.trans h
    | abort t => rw [hr] at h; exact h0.trans h
    | fault f => trivial
    | refused x => trivial

/-- With no turn listed nothing happens between two accesses. -/
@[simp] theorem pause_none (locked : Bool) (s : State) (h : s.inside = []) : s.pause locked = .ok () s := by
  unfold State.pause
  rw [h]

/-- The reads of a multiple transfer change only what `TransferFrame` says. -/
theorem loadWords_moved (priv : Bool) (n : Nat) : ∀ (a : Word) (s : State), (loadWords priv n a s).Moved s := by
  induction n with
  | zero => intro a s; exact TransferFrame.refl s
  | succ n ih =>
    intro a s
    refine Acc.moved_bind (pause_moved false s) fun _ s0 => ?_
    refine Acc.moved_bind (loadData_framed 4 priv false a s0).moved fun v t => ?_
    exact Acc.moved_bind (ih (a + 4) t) fun vs u => TransferFrame.refl u

/-- The writes of a multiple transfer change only what `TransferFrame` says. -/
theorem storeWords_moved (priv : Bool) (vs : List Word) : ∀ (opened : Bool) (a : Word) (s : State),
    (storeWords priv opened vs a s).Moved s := by
  induction vs with
  | nil => intro o a s; exact TransferFrame.refl s
  | cons v vs ih =>
    intro o a s
    refine Acc.moved_bind (pause_moved false s) fun _ s0 => ?_
    exact Acc.moved_bind (storeData_framed 4 priv o false a v s0).moved fun b t => ih b (a + 4) t

/-- How an instruction that made an access goes on. -/
theorem Acc.finish_cases {α : Type} {a : Acc α} {f : State → State} {k : α → State → Result} {t : State}
    (h : a.finish f k = .next t) : (∃ v s, a = .ok v s ∧ k v s = .next t) ∨ (∃ s, a = .abort s ∧ t = f s) := by
  cases a with
  | ok v s => exact .inl ⟨v, s, rfl, h⟩
  | abort s => exact .inr ⟨s, rfl, (next_inj h).symm⟩
  | fault x => cases h
  | refused x => cases h

/-! ### The typed transfers -/

/-- A single load loads, writes back and advances or branches, or takes the Data Abort. -/
theorem loadSingle_cases {k : LoadKind} {priv : Bool} {rn rd : Reg} {x : Address} {s t : State}
    (h : loadSingle k priv rn rd x s = .next t) :
    (∃ data s1, loadData k.size priv false x.addr s = .ok data s1 ∧
      (if rd = 15 then loadPc (k.extend x.addr data) (match x.wb with | some w => s1.setReg rn w | none => s1)
       else .next ((match x.wb with | some w => s1.setReg rn w | none => s1).setReg rd (k.extend x.addr data)).advance) =
        (.next t : Result)) ∨
      (∃ s1, loadData k.size priv false x.addr s = .abort s1 ∧ t = s1.dataAbort) := by
  unfold loadSingle at h
  split at h
  · cases h
  · split at h
    · cases h
    · rcases Acc.finish_cases h with ⟨v, s1, h1, h2⟩ | ⟨s1, h1, h2⟩
      · exact .inl ⟨v, s1, h1, h2⟩
      · exact .inr ⟨s1, h1, h2⟩

/-- A single store stores, writes back and advances, or takes the Data Abort. -/
theorem storeSingle_cases {size : Nat} {priv : Bool} {rn : Reg} {x : Address} {v : Word} {s t : State}
    (h : storeSingle size priv rn x v s = .next t) :
    (∃ b s1, storeData size priv false false x.addr v s = .ok b s1 ∧
      t = (match x.wb with | some w => s1.setReg rn w | none => s1).advance) ∨
      (∃ s1, storeData size priv false false x.addr v s = .abort s1 ∧ t = s1.dataAbort) := by
  unfold storeSingle at h
  split at h
  · cases h
  · rcases Acc.finish_cases h with ⟨b, s1, h1, h2⟩ | ⟨s1, h1, h2⟩
    · exact .inl ⟨b, s1, h1, (next_inj h2).symm⟩
    · exact .inr ⟨s1, h1, h2⟩

/-- The write-back of a transfer, if it has one. -/
def State.backTo (s : State) (rn : Reg) (wb : Option Word) : State :=
  match wb with
  | some w => s.setReg rn w
  | none => s

/-- A swap reads, lets other agents act, stores and writes its register, or takes the Data Abort of one of its halves. -/
theorem swapData_cases {k : LoadKind} {rn rd rm : Reg} {s t : State} (h : swapData k rn rd rm s = .next t) :
    (∃ data s1 b s3, loadData k.size s.priv true (s.reg rn) s = .ok data s1 ∧
      ((s1.swapPause (s.reg rn)).bind fun _ s2 => storeData k.size s.priv false true (s.reg rn) (s.reg rm) s2) = .ok b s3 ∧
      t = (s3.setReg rd (k.extend (s.reg rn) data)).advance) ∨
      (∃ s1, loadData k.size s.priv true (s.reg rn) s = .abort s1 ∧ t = s1.dataAbort) ∨
      (∃ data s1 s3, loadData k.size s.priv true (s.reg rn) s = .ok data s1 ∧
        ((s1.swapPause (s.reg rn)).bind fun _ s2 => storeData k.size s.priv false true (s.reg rn) (s.reg rm) s2) =
          .abort s3 ∧ t = s3.dataAbort) := by
  unfold swapData at h
  rcases Acc.finish_cases h with ⟨v, s1, h1, h2⟩ | ⟨s1, h1, h2⟩
  · rcases Acc.finish_cases h2 with ⟨b, s3, h3, h4⟩ | ⟨s3, h3, h4⟩
    · exact .inl ⟨v, s1, b, s3, h1, h3, (next_inj h4).symm⟩
    · exact .inr (.inr ⟨v, s1, s3, h1, h3, h4⟩)
  · exact .inr (.inl ⟨s1, h1, h2⟩)

/-- A load multiple fills the registers, writes back, and advances or writes the pc, or takes the Data Abort. -/
theorem loadMultiple_cases {place : Reg → PhysReg} {hazard : Bool} {rn : Reg} {list : BitVec 16} {start : Word}
    {wb : Option Word} {wpc : Word → State → Result} {s t : State}
    (h : loadMultiple place hazard rn list start wb wpc s = .next t) :
    (∃ vs s1 s2, loadWords s.priv (listed list).length start s = .ok vs s1 ∧
      s2 = (s1.writeRegs place (listed list) vs).backTo rn wb ∧
      (list.getLsbD 15 = true ∧ wpc (vs.getLastD 0) s2 = .next t ∨
        list.getLsbD 15 = false ∧ t = { s2.advance with bankHazard := hazard })) ∨
      (∃ s1, loadWords s.priv (listed list).length start s = .abort s1 ∧
        t = abortedLoad (physReg? s.cpsr.m rn) place (listed list) s1) := by
  unfold loadMultiple at h
  rcases Acc.finish_cases h with ⟨v, s1, h1, h2⟩ | ⟨s1, h1, h2⟩
  · refine .inl ⟨v, s1, _, h1, rfl, ?_⟩
    cases hb : list.getLsbD 15
    · rw [hb] at h2
      exact .inr ⟨rfl, (next_inj h2).symm⟩
    · rw [hb] at h2
      exact .inl ⟨rfl, h2⟩
  · exact .inr ⟨s1, h1, h2⟩

/-- A store multiple stores, writes back and advances, or takes the Data Abort. -/
theorem storeMultiple_cases {value : Reg → Word} {draw hazard : Bool} {rn : Reg} {list : BitVec 16} {start : Word}
    {wb : Option Word} {s t : State} (h : storeMultiple value draw hazard rn list start wb s = .next t) :
    (∃ s1 s2, storeWords s.priv false ((listed list).map value) start { s with free := if draw then s.free + 1 else s.free } =
        .ok () s1 ∧ s2 = s1.backTo rn wb ∧ t = { s2.advance with bankHazard := hazard }) ∨
      (∃ s1, storeWords s.priv false ((listed list).map value) start { s with free := if draw then s.free + 1 else s.free } =
        .abort s1 ∧ t = s1.dataAbort) := by
  unfold storeMultiple at h
  rcases Acc.finish_cases h with ⟨v, s1, h1, h2⟩ | ⟨s1, h1, h2⟩
  · exact .inl ⟨s1, _, h1, rfl, (next_inj h2).symm⟩
  · exact .inr ⟨s1, h1, h2⟩

/-- A data-processing operation with a destination writes its register and flags, branches, or returns from an exception. -/
theorem dataProcess_cases {op : DpOp} {sf : Bool} {rd : Reg} {n : Word} {x : Shifted} {s t : State}
    (h : dataProcess op sf rd n x s = .next t) :
    (rd ≠ 15 ∧ t = (State.setReg { s with cpsr := if sf then (op.eval n x s.cpsr).2 else s.cpsr } rd
        (op.eval n x s.cpsr).1).advance) ∨
      (rd = 15 ∧ sf = false ∧ writePcArm (op.eval n x s.cpsr).1 s = .next t) ∨
      (rd = 15 ∧ sf = true ∧ exceptionReturn (op.eval n x s.cpsr).1 s = .next t) := by
  unfold dataProcess at h
  dsimp only at h
  split at h
  · cases sf
    · exact .inr (.inl ⟨‹_›, rfl, h⟩)
    · exact .inr (.inr ⟨‹_›, rfl, h⟩)
  · exact .inl ⟨‹_›, (next_inj h).symm⟩

/-- The flags that a data-processing operation leaves: only N, Z, C and V can change. -/
theorem eval_status (op : DpOp) (n : Word) (x : Shifted) (p : Psr) :
    (op.eval n x p).2 = { p with n := (op.eval n x p).2.n, z := (op.eval n x p).2.z, c := (op.eval n x p).2.c,
                                 v := (op.eval n x p).2.v } := by
  cases op <;> rfl

end Sys2Proof.Machine
end

