-- ==== Sys2Proof/Laws/PerInstr.lean ====
section
/-! SUPPORT. A statement about each instruction as syntax, one lemma per constructor: decoding the encoding of an
instruction whose operands fit its row gives the instruction back (R170, R228). -/

namespace Sys2Proof.Laws.RoundTrip

set_option Elab.async false
set_option linter.unusedSimpArgs false

/-- Decoding the encoding of `i` gives `i`. -/
def Statement (i : Instr) : Prop := i.encodable = true → decode (encode i) = .ok i

theorem andImm (c : Cond) (sf : Bool) (rn : Reg) (rd : Reg) (rot : BitVec 4) (imm : BitVec 8) : Statement (.andImm c sf rn rd rot imm) := by
  intro _
  simp [encode, decode, decodeArm, decodeCond, decodeDpImm, put_lo, put_hi, put_bit_lo, put_bit_hi, -BitVec.getLsbD_eq_getElem]

theorem andShImm (c : Cond) (sf : Bool) (rn : Reg) (rd : Reg) (sa : BitVec 5) (sh : Shift) (rm : Reg) : Statement (.andShImm c sf rn rd sa sh rm) := by
  intro _
  simp [encode, decode, decodeArm, decodeCond, decodeDpShImm, put_lo, put_hi, put_bit_lo, put_bit_hi, -BitVec.getLsbD_eq_getElem]

theorem andShReg (c : Cond) (sf : Bool) (rn : Reg) (rd : Reg) (rs : Reg) (sh : Shift) (rm : Reg) : Statement (.andShReg c sf rn rd rs sh rm) := by
  intro _
  simp [encode, decode, decodeArm, decodeCond, decodeDpShReg, put_lo, put_hi, put_bit_lo, put_bit_hi, -BitVec.getLsbD_eq_getElem]

theorem eorImm (c : Cond) (sf : Bool) (rn : Reg) (rd : Reg) (rot : BitVec 4) (imm : BitVec 8) : Statement (.eorImm c sf rn rd rot imm) := by
  intro _
  simp [encode, decode, decodeArm, decodeCond, decodeDpImm, put_lo, put_hi, put_bit_lo, put_bit_hi, -BitVec.getLsbD_eq_getElem]

theorem eorShImm (c : Cond) (sf : Bool) (rn : Reg) (rd : Reg) (sa : BitVec 5) (sh : Shift) (rm : Reg) : Statement (.eorShImm c sf rn rd sa sh rm) := by
  intro _
  simp [encode, decode, decodeArm, decodeCond, decodeDpShImm, put_lo, put_hi, put_bit_lo, put_bit_hi, -BitVec.getLsbD_eq_getElem]

theorem eorShReg (c : Cond) (sf : Bool) (rn : Reg) (rd : Reg) (rs : Reg) (sh : Shift) (rm : Reg) : Statement (.eorShReg c sf rn rd rs sh rm) := by
  intro _
  simp [encode, decode, decodeArm, decodeCond, decodeDpShReg, put_lo, put_hi, put_bit_lo, put_bit_hi, -BitVec.getLsbD_eq_getElem]

theorem subImm (c : Cond) (sf : Bool) (rn : Reg) (rd : Reg) (rot : BitVec 4) (imm : BitVec 8) : Statement (.subImm c sf rn rd rot imm) := by
  intro _
  simp [encode, decode, decodeArm, decodeCond, decodeDpImm, put_lo, put_hi, put_bit_lo, put_bit_hi, -BitVec.getLsbD_eq_getElem]

theorem subShImm (c : Cond) (sf : Bool) (rn : Reg) (rd : Reg) (sa : BitVec 5) (sh : Shift) (rm : Reg) : Statement (.subShImm c sf rn rd sa sh rm) := by
  intro _
  simp [encode, decode, decodeArm, decodeCond, decodeDpShImm, put_lo, put_hi, put_bit_lo, put_bit_hi, -BitVec.getLsbD_eq_getElem]

theorem subShReg (c : Cond) (sf : Bool) (rn : Reg) (rd : Reg) (rs : Reg) (sh : Shift) (rm : Reg) : Statement (.subShReg c sf rn rd rs sh rm) := by
  intro _
  simp [encode, decode, decodeArm, decodeCond, decodeDpShReg, put_lo, put_hi, put_bit_lo, put_bit_hi, -BitVec.getLsbD_eq_getElem]

theorem rsbImm (c : Cond) (sf : Bool) (rn : Reg) (rd : Reg) (rot : BitVec 4) (imm : BitVec 8) : Statement (.rsbImm c sf rn rd rot imm) := by
  intro _
  simp [encode, decode, decodeArm, decodeCond, decodeDpImm, put_lo, put_hi, put_bit_lo, put_bit_hi, -BitVec.getLsbD_eq_getElem]

theorem rsbShImm (c : Cond) (sf : Bool) (rn : Reg) (rd : Reg) (sa : BitVec 5) (sh : Shift) (rm : Reg) : Statement (.rsbShImm c sf rn rd sa sh rm) := by
  intro _
  simp [encode, decode, decodeArm, decodeCond, decodeDpShImm, put_lo, put_hi, put_bit_lo, put_bit_hi, -BitVec.getLsbD_eq_getElem]

theorem rsbShReg (c : Cond) (sf : Bool) (rn : Reg) (rd : Reg) (rs : Reg) (sh : Shift) (rm : Reg) : Statement (.rsbShReg c sf rn rd rs sh rm) := by
  intro _
  simp [encode, decode, decodeArm, decodeCond, decodeDpShReg, put_lo, put_hi, put_bit_lo, put_bit_hi, -BitVec.getLsbD_eq_getElem]

theorem addImm (c : Cond) (sf : Bool) (rn : Reg) (rd : Reg) (rot : BitVec 4) (imm : BitVec 8) : Statement (.addImm c sf rn rd rot imm) := by
  intro _
  simp [encode, decode, decodeArm, decodeCond, decodeDpImm, put_lo, put_hi, put_bit_lo, put_bit_hi, -BitVec.getLsbD_eq_getElem]

theorem addShImm (c : Cond) (sf : Bool) (rn : Reg) (rd : Reg) (sa : BitVec 5) (sh : Shift) (rm : Reg) : Statement (.addShImm c sf rn rd sa sh rm) := by
  intro _
  simp [encode, decode, decodeArm, decodeCond, decodeDpShImm, put_lo, put_hi, put_bit_lo, put_bit_hi, -BitVec.getLsbD_eq_getElem]

theorem addShReg (c : Cond) (sf : Bool) (rn : Reg) (rd : Reg) (rs : Reg) (sh : Shift) (rm : Reg) : Statement (.addShReg c sf rn rd rs sh rm) := by
  intro _
  simp [encode, decode, decodeArm, decodeCond, decodeDpShReg, put_lo, put_hi, put_bit_lo, put_bit_hi, -BitVec.getLsbD_eq_getElem]

theorem adcImm (c : Cond) (sf : Bool) (rn : Reg) (rd : Reg) (rot : BitVec 4) (imm : BitVec 8) : Statement (.adcImm c sf rn rd rot imm) := by
  intro _
  simp [encode, decode, decodeArm, decodeCond, decodeDpImm, put_lo, put_hi, put_bit_lo, put_bit_hi, -BitVec.getLsbD_eq_getElem]

theorem adcShImm (c : Cond) (sf : Bool) (rn : Reg) (rd : Reg) (sa : BitVec 5) (sh : Shift) (rm : Reg) : Statement (.adcShImm c sf rn rd sa sh rm) := by
  intro _
  simp [encode, decode, decodeArm, decodeCond, decodeDpShImm, put_lo, put_hi, put_bit_lo, put_bit_hi, -BitVec.getLsbD_eq_getElem]

theorem adcShReg (c : Cond) (sf : Bool) (rn : Reg) (rd : Reg) (rs : Reg) (sh : Shift) (rm : Reg) : Statement (.adcShReg c sf rn rd rs sh rm) := by
  intro _
  simp [encode, decode, decodeArm, decodeCond, decodeDpShReg, put_lo, put_hi, put_bit_lo, put_bit_hi, -BitVec.getLsbD_eq_getElem]

theorem sbcImm (c : Cond) (sf : Bool) (rn : Reg) (rd : Reg) (rot : BitVec 4) (imm : BitVec 8) : Statement (.sbcImm c sf rn rd rot imm) := by
  intro _
  simp [encode, decode, decodeArm, decodeCond, decodeDpImm, put_lo, put_hi, put_bit_lo, put_bit_hi, -BitVec.getLsbD_eq_getElem]

theorem sbcShImm (c : Cond) (sf : Bool) (rn : Reg) (rd : Reg) (sa : BitVec 5) (sh : Shift) (rm : Reg) : Statement (.sbcShImm c sf rn rd sa sh rm) := by
  intro _
  simp [encode, decode, decodeArm, decodeCond, decodeDpShImm, put_lo, put_hi, put_bit_lo, put_bit_hi, -BitVec.getLsbD_eq_getElem]

theorem sbcShReg (c : Cond) (sf : Bool) (rn : Reg) (rd : Reg) (rs : Reg) (sh : Shift) (rm : Reg) : Statement (.sbcShReg c sf rn rd rs sh rm) := by
  intro _
  simp [encode, decode, decodeArm, decodeCond, decodeDpShReg, put_lo, put_hi, put_bit_lo, put_bit_hi, -BitVec.getLsbD_eq_getElem]

theorem rscImm (c : Cond) (sf : Bool) (rn : Reg) (rd : Reg) (rot : BitVec 4) (imm : BitVec 8) : Statement (.rscImm c sf rn rd rot imm) := by
  intro _
  simp [encode, decode, decodeArm, decodeCond, decodeDpImm, put_lo, put_hi, put_bit_lo, put_bit_hi, -BitVec.getLsbD_eq_getElem]

theorem rscShImm (c : Cond) (sf : Bool) (rn : Reg) (rd : Reg) (sa : BitVec 5) (sh : Shift) (rm : Reg) : Statement (.rscShImm c sf rn rd sa sh rm) := by
  intro _
  simp [encode, decode, decodeArm, decodeCond, decodeDpShImm, put_lo, put_hi, put_bit_lo, put_bit_hi, -BitVec.getLsbD_eq_getElem]

theorem rscShReg (c : Cond) (sf : Bool) (rn : Reg) (rd : Reg) (rs : Reg) (sh : Shift) (rm : Reg) : Statement (.rscShReg c sf rn rd rs sh rm) := by
  intro _
  simp [encode, decode, decodeArm, decodeCond, decodeDpShReg, put_lo, put_hi, put_bit_lo, put_bit_hi, -BitVec.getLsbD_eq_getElem]

theorem tstImm (c : Cond) (rn : Reg) (z : BitVec 4) (rot : BitVec 4) (imm : BitVec 8) : Statement (.tstImm c rn z rot imm) := by
  intro _
  simp [encode, decode, decodeArm, decodeCond, decodeDpImm, put_lo, put_hi, put_bit_lo, put_bit_hi, -BitVec.getLsbD_eq_getElem]

theorem tstShImm (c : Cond) (rn : Reg) (z : BitVec 4) (sa : BitVec 5) (sh : Shift) (rm : Reg) : Statement (.tstShImm c rn z sa sh rm) := by
  intro _
  simp [encode, decode, decodeArm, decodeCond, decodeDpShImm, put_lo, put_hi, put_bit_lo, put_bit_hi, -BitVec.getLsbD_eq_getElem]

theorem tstShReg (c : Cond) (rn : Reg) (z : BitVec 4) (rs : Reg) (sh : Shift) (rm : Reg) : Statement (.tstShReg c rn z rs sh rm) := by
  intro _
  simp [encode, decode, decodeArm, decodeCond, decodeDpShReg, put_lo, put_hi, put_bit_lo, put_bit_hi, -BitVec.getLsbD_eq_getElem]

theorem teqImm (c : Cond) (rn : Reg) (z : BitVec 4) (rot : BitVec 4) (imm : BitVec 8) : Statement (.teqImm c rn z rot imm) := by
  intro _
  simp [encode, decode, decodeArm, decodeCond, decodeDpImm, put_lo, put_hi, put_bit_lo, put_bit_hi, -BitVec.getLsbD_eq_getElem]

theorem teqShImm (c : Cond) (rn : Reg) (z : BitVec 4) (sa : BitVec 5) (sh : Shift) (rm : Reg) : Statement (.teqShImm c rn z sa sh rm) := by
  intro _
  simp [encode, decode, decodeArm, decodeCond, decodeDpShImm, put_lo, put_hi, put_bit_lo, put_bit_hi, -BitVec.getLsbD_eq_getElem]

theorem teqShReg (c : Cond) (rn : Reg) (z : BitVec 4) (rs : Reg) (sh : Shift) (rm : Reg) : Statement (.teqShReg c rn z rs sh rm) := by
  intro _
  simp [encode, decode, decodeArm, decodeCond, decodeDpShReg, put_lo, put_hi, put_bit_lo, put_bit_hi, -BitVec.getLsbD_eq_getElem]

theorem cmpImm (c : Cond) (rn : Reg) (z : BitVec 4) (rot : BitVec 4) (imm : BitVec 8) : Statement (.cmpImm c rn z rot imm) := by
  intro _
  simp [encode, decode, decodeArm, decodeCond, decodeDpImm, put_lo, put_hi, put_bit_lo, put_bit_hi, -BitVec.getLsbD_eq_getElem]

theorem cmpShImm (c : Cond) (rn : Reg) (z : BitVec 4) (sa : BitVec 5) (sh : Shift) (rm : Reg) : Statement (.cmpShImm c rn z sa sh rm) := by
  intro _
  simp [encode, decode, decodeArm, decodeCond, decodeDpShImm, put_lo, put_hi, put_bit_lo, put_bit_hi, -BitVec.getLsbD_eq_getElem]

theorem cmpShReg (c : Cond) (rn : Reg) (z : BitVec 4) (rs : Reg) (sh : Shift) (rm : Reg) : Statement (.cmpShReg c rn z rs sh rm) := by
  intro _
  simp [encode, decode, decodeArm, decodeCond, decodeDpShReg, put_lo, put_hi, put_bit_lo, put_bit_hi, -BitVec.getLsbD_eq_getElem]

theorem cmnImm (c : Cond) (rn : Reg) (z : BitVec 4) (rot : BitVec 4) (imm : BitVec 8) : Statement (.cmnImm c rn z rot imm) := by
  intro _
  simp [encode, decode, decodeArm, decodeCond, decodeDpImm, put_lo, put_hi, put_bit_lo, put_bit_hi, -BitVec.getLsbD_eq_getElem]

theorem cmnShImm (c : Cond) (rn : Reg) (z : BitVec 4) (sa : BitVec 5) (sh : Shift) (rm : Reg) : Statement (.cmnShImm c rn z sa sh rm) := by
  intro _
  simp [encode, decode, decodeArm, decodeCond, decodeDpShImm, put_lo, put_hi, put_bit_lo, put_bit_hi, -BitVec.getLsbD_eq_getElem]

theorem cmnShReg (c : Cond) (rn : Reg) (z : BitVec 4) (rs : Reg) (sh : Shift) (rm : Reg) : Statement (.cmnShReg c rn z rs sh rm) := by
  intro _
  simp [encode, decode, decodeArm, decodeCond, decodeDpShReg, put_lo, put_hi, put_bit_lo, put_bit_hi, -BitVec.getLsbD_eq_getElem]

theorem orrImm (c : Cond) (sf : Bool) (rn : Reg) (rd : Reg) (rot : BitVec 4) (imm : BitVec 8) : Statement (.orrImm c sf rn rd rot imm) := by
  intro _
  simp [encode, decode, decodeArm, decodeCond, decodeDpImm, put_lo, put_hi, put_bit_lo, put_bit_hi, -BitVec.getLsbD_eq_getElem]

theorem orrShImm (c : Cond) (sf : Bool) (rn : Reg) (rd : Reg) (sa : BitVec 5) (sh : Shift) (rm : Reg) : Statement (.orrShImm c sf rn rd sa sh rm) := by
  intro _
  simp [encode, decode, decodeArm, decodeCond, decodeDpShImm, put_lo, put_hi, put_bit_lo, put_bit_hi, -BitVec.getLsbD_eq_getElem]

theorem orrShReg (c : Cond) (sf : Bool) (rn : Reg) (rd : Reg) (rs : Reg) (sh : Shift) (rm : Reg) : Statement (.orrShReg c sf rn rd rs sh rm) := by
  intro _
  simp [encode, decode, decodeArm, decodeCond, decodeDpShReg, put_lo, put_hi, put_bit_lo, put_bit_hi, -BitVec.getLsbD_eq_getElem]

theorem movImm (c : Cond) (sf : Bool) (z : BitVec 4) (rd : Reg) (rot : BitVec 4) (imm : BitVec 8) : Statement (.movImm c sf z rd rot imm) := by
  intro _
  simp [encode, decode, decodeArm, decodeCond, decodeDpImm, put_lo, put_hi, put_bit_lo, put_bit_hi, -BitVec.getLsbD_eq_getElem]

theorem movShImm (c : Cond) (sf : Bool) (z : BitVec 4) (rd : Reg) (sa : BitVec 5) (sh : Shift) (rm : Reg) : Statement (.movShImm c sf z rd sa sh rm) := by
  intro _
  simp [encode, decode, decodeArm, decodeCond, decodeDpShImm, put_lo, put_hi, put_bit_lo, put_bit_hi, -BitVec.getLsbD_eq_getElem]

theorem movShReg (c : Cond) (sf : Bool) (z : BitVec 4) (rd : Reg) (rs : Reg) (sh : Shift) (rm : Reg) : Statement (.movShReg c sf z rd rs sh rm) := by
  intro _
  simp [encode, decode, decodeArm, decodeCond, decodeDpShReg, put_lo, put_hi, put_bit_lo, put_bit_hi, -BitVec.getLsbD_eq_getElem]

theorem bicImm (c : Cond) (sf : Bool) (rn : Reg) (rd : Reg) (rot : BitVec 4) (imm : BitVec 8) : Statement (.bicImm c sf rn rd rot imm) := by
  intro _
  simp [encode, decode, decodeArm, decodeCond, decodeDpImm, put_lo, put_hi, put_bit_lo, put_bit_hi, -BitVec.getLsbD_eq_getElem]

theorem bicShImm (c : Cond) (sf : Bool) (rn : Reg) (rd : Reg) (sa : BitVec 5) (sh : Shift) (rm : Reg) : Statement (.bicShImm c sf rn rd sa sh rm) := by
  intro _
  simp [encode, decode, decodeArm, decodeCond, decodeDpShImm, put_lo, put_hi, put_bit_lo, put_bit_hi, -BitVec.getLsbD_eq_getElem]

theorem bicShReg (c : Cond) (sf : Bool) (rn : Reg) (rd : Reg) (rs : Reg) (sh : Shift) (rm : Reg) : Statement (.bicShReg c sf rn rd rs sh rm) := by
  intro _
  simp [encode, decode, decodeArm, decodeCond, decodeDpShReg, put_lo, put_hi, put_bit_lo, put_bit_hi, -BitVec.getLsbD_eq_getElem]

theorem mvnImm (c : Cond) (sf : Bool) (z : BitVec 4) (rd : Reg) (rot : BitVec 4) (imm : BitVec 8) : Statement (.mvnImm c sf z rd rot imm) := by
  intro _
  simp [encode, decode, decodeArm, decodeCond, decodeDpImm, put_lo, put_hi, put_bit_lo, put_bit_hi, -BitVec.getLsbD_eq_getElem]

theorem mvnShImm (c : Cond) (sf : Bool) (z : BitVec 4) (rd : Reg) (sa : BitVec 5) (sh : Shift) (rm : Reg) : Statement (.mvnShImm c sf z rd sa sh rm) := by
  intro _
  simp [encode, decode, decodeArm, decodeCond, decodeDpShImm, put_lo, put_hi, put_bit_lo, put_bit_hi, -BitVec.getLsbD_eq_getElem]

theorem mvnShReg (c : Cond) (sf : Bool) (z : BitVec 4) (rd : Reg) (rs : Reg) (sh : Shift) (rm : Reg) : Statement (.mvnShReg c sf z rd rs sh rm) := by
  intro _
  simp [encode, decode, decodeArm, decodeCond, decodeDpShReg, put_lo, put_hi, put_bit_lo, put_bit_hi, -BitVec.getLsbD_eq_getElem]

theorem clz (c : Cond) (o1 : BitVec 4) (rd : Reg) (o2 : BitVec 4) (rm : Reg) : Statement (.clz c o1 rd o2 rm) := by
  intro _
  simp [encode, decode, decodeArm, decodeCond, decodeMisc, put_lo, put_hi, put_bit_lo, put_bit_hi, -BitVec.getLsbD_eq_getElem]

theorem mul (c : Cond) (sf : Bool) (rd : Reg) (z : BitVec 4) (rs : Reg) (rm : Reg) : Statement (.mul c sf rd z rs rm) := by
  intro _
  simp [encode, decode, decodeArm, decodeCond, decodeMul, put_lo, put_hi, put_bit_lo, put_bit_hi, -BitVec.getLsbD_eq_getElem]

theorem mla (c : Cond) (sf : Bool) (rd : Reg) (rn : Reg) (rs : Reg) (rm : Reg) : Statement (.mla c sf rd rn rs rm) := by
  intro _
  simp [encode, decode, decodeArm, decodeCond, decodeMul, put_lo, put_hi, put_bit_lo, put_bit_hi, -BitVec.getLsbD_eq_getElem]

theorem umull (c : Cond) (sf : Bool) (rdHi : Reg) (rdLo : Reg) (rs : Reg) (rm : Reg) : Statement (.umull c sf rdHi rdLo rs rm) := by
  intro _
  simp [encode, decode, decodeArm, decodeCond, decodeMul, put_lo, put_hi, put_bit_lo, put_bit_hi, -BitVec.getLsbD_eq_getElem]

theorem umlal (c : Cond) (sf : Bool) (rdHi : Reg) (rdLo : Reg) (rs : Reg) (rm : Reg) : Statement (.umlal c sf rdHi rdLo rs rm) := by
  intro _
  simp [encode, decode, decodeArm, decodeCond, decodeMul, put_lo, put_hi, put_bit_lo, put_bit_hi, -BitVec.getLsbD_eq_getElem]

theorem smull (c : Cond) (sf : Bool) (rdHi : Reg) (rdLo : Reg) (rs : Reg) (rm : Reg) : Statement (.smull c sf rdHi rdLo rs rm) := by
  intro _
  simp [encode, decode, decodeArm, decodeCond, decodeMul, put_lo, put_hi, put_bit_lo, put_bit_hi, -BitVec.getLsbD_eq_getElem]

theorem smlal (c : Cond) (sf : Bool) (rdHi : Reg) (rdLo : Reg) (rs : Reg) (rm : Reg) : Statement (.smlal c sf rdHi rdLo rs rm) := by
  intro _
  simp [encode, decode, decodeArm, decodeCond, decodeMul, put_lo, put_hi, put_bit_lo, put_bit_hi, -BitVec.getLsbD_eq_getElem]

theorem smlaXY (c : Cond) (rd : Reg) (rn : Reg) (rs : Reg) (y : Bool) (x : Bool) (rm : Reg) : Statement (.smlaXY c rd rn rs y x rm) := by
  intro _
  simp [encode, decode, decodeArm, decodeCond, decodeMisc, put_lo, put_hi, put_bit_lo, put_bit_hi, -BitVec.getLsbD_eq_getElem]

theorem smlawY (c : Cond) (rd : Reg) (rn : Reg) (rs : Reg) (y : Bool) (rm : Reg) : Statement (.smlawY c rd rn rs y rm) := by
  intro _
  simp [encode, decode, decodeArm, decodeCond, decodeMisc, put_lo, put_hi, put_bit_lo, put_bit_hi, -BitVec.getLsbD_eq_getElem]

theorem smulwY (c : Cond) (rd : Reg) (z : BitVec 4) (rs : Reg) (y : Bool) (rm : Reg) : Statement (.smulwY c rd z rs y rm) := by
  intro _
  simp [encode, decode, decodeArm, decodeCond, decodeMisc, put_lo, put_hi, put_bit_lo, put_bit_hi, -BitVec.getLsbD_eq_getElem]

theorem smlalXY (c : Cond) (rdHi : Reg) (rdLo : Reg) (rs : Reg) (y : Bool) (x : Bool) (rm : Reg) : Statement (.smlalXY c rdHi rdLo rs y x rm) := by
  intro _
  simp [encode, decode, decodeArm, decodeCond, decodeMisc, put_lo, put_hi, put_bit_lo, put_bit_hi, -BitVec.getLsbD_eq_getElem]

theorem smulXY (c : Cond) (rd : Reg) (z : BitVec 4) (rs : Reg) (y : Bool) (x : Bool) (rm : Reg) : Statement (.smulXY c rd z rs y x rm) := by
  intro _
  simp [encode, decode, decodeArm, decodeCond, decodeMisc, put_lo, put_hi, put_bit_lo, put_bit_hi, -BitVec.getLsbD_eq_getElem]

theorem qadd (c : Cond) (rn : Reg) (rd : Reg) (z : BitVec 4) (rm : Reg) : Statement (.qadd c rn rd z rm) := by
  intro _
  simp [encode, decode, decodeArm, decodeCond, decodeMisc, put_lo, put_hi, put_bit_lo, put_bit_hi, -BitVec.getLsbD_eq_getElem]

theorem qsub (c : Cond) (rn : Reg) (rd : Reg) (z : BitVec 4) (rm : Reg) : Statement (.qsub c rn rd z rm) := by
  intro _
  simp [encode, decode, decodeArm, decodeCond, decodeMisc, put_lo, put_hi, put_bit_lo, put_bit_hi, -BitVec.getLsbD_eq_getElem]

theorem qdadd (c : Cond) (rn : Reg) (rd : Reg) (z : BitVec 4) (rm : Reg) : Statement (.qdadd c rn rd z rm) := by
  intro _
  simp [encode, decode, decodeArm, decodeCond, decodeMisc, put_lo, put_hi, put_bit_lo, put_bit_hi, -BitVec.getLsbD_eq_getElem]

theorem qdsub (c : Cond) (rn : Reg) (rd : Reg) (z : BitVec 4) (rm : Reg) : Statement (.qdsub c rn rd z rm) := by
  intro _
  simp [encode, decode, decodeArm, decodeCond, decodeMisc, put_lo, put_hi, put_bit_lo, put_bit_hi, -BitVec.getLsbD_eq_getElem]

theorem b (c : Cond) (off : BitVec 24) : Statement (.b c off) := by
  intro _
  simp [encode, decode, decodeArm, decodeCond, put_lo, put_hi, put_bit_lo, put_bit_hi, -BitVec.getLsbD_eq_getElem]

theorem bl (c : Cond) (off : BitVec 24) : Statement (.bl c off) := by
  intro _
  simp [encode, decode, decodeArm, decodeCond, put_lo, put_hi, put_bit_lo, put_bit_hi, -BitVec.getLsbD_eq_getElem]

theorem blxImm (h : Bool) (off : BitVec 24) : Statement (.blxImm h off) := by
  intro _
  simp [encode, decode, decodeArm, decodeUncond, Cond.ofBits, put_lo, put_hi, put_bit_lo, put_bit_hi, -BitVec.getLsbD_eq_getElem]

theorem bx (c : Cond) (o : BitVec 12) (rm : Reg) : Statement (.bx c o rm) := by
  intro _
  simp [encode, decode, decodeArm, decodeCond, decodeMisc, put_lo, put_hi, put_bit_lo, put_bit_hi, -BitVec.getLsbD_eq_getElem]

theorem blxReg (c : Cond) (o : BitVec 12) (rm : Reg) : Statement (.blxReg c o rm) := by
  intro _
  simp [encode, decode, decodeArm, decodeCond, decodeMisc, put_lo, put_hi, put_bit_lo, put_bit_hi, -BitVec.getLsbD_eq_getElem]

theorem mrs (c : Cond) (r : Bool) (o : BitVec 4) (rd : Reg) (z1 : BitVec 4) (z2 : BitVec 4) : Statement (.mrs c r o rd z1 z2) := by
  intro _
  simp [encode, decode, decodeArm, decodeCond, decodeMisc, put_lo, put_hi, put_bit_lo, put_bit_hi, -BitVec.getLsbD_eq_getElem]

theorem msrReg (c : Cond) (r : Bool) (fm : BitVec 4) (o : BitVec 4) (z : BitVec 4) (rm : Reg) : Statement (.msrReg c r fm o z rm) := by
  intro _
  simp [encode, decode, decodeArm, decodeCond, decodeMisc, put_lo, put_hi, put_bit_lo, put_bit_hi, -BitVec.getLsbD_eq_getElem]

theorem msrImm (c : Cond) (r : Bool) (fm : BitVec 4) (o : BitVec 4) (rot : BitVec 4) (imm : BitVec 8) : Statement (.msrImm c r fm o rot imm) := by
  intro _
  simp [encode, decode, decodeArm, decodeCond, put_lo, put_hi, put_bit_lo, put_bit_hi, -BitVec.getLsbD_eq_getElem]

theorem swi (c : Cond) (imm : BitVec 24) : Statement (.swi c imm) := by
  intro _
  simp [encode, decode, decodeArm, decodeCond, put_lo, put_hi, put_bit_lo, put_bit_hi, -BitVec.getLsbD_eq_getElem]

theorem bkpt (immHi : BitVec 12) (immLo : BitVec 4) : Statement (.bkpt immHi immLo) := by
  intro _
  simp [encode, decode, decodeArm, decodeCond, decodeMisc, Cond.ofBits, put_lo, put_hi, put_bit_lo, put_bit_hi, -BitVec.getLsbD_eq_getElem]

theorem ldrImm (c : Cond) (p : Bool) (u : Bool) (w : Bool) (rn : Reg) (rd : Reg) (off : BitVec 12) : Statement (.ldrImm c p u w rn rd off) := by
  intro h
  simp [Instr.encodable, notTForm] at h
  cases p <;> cases w <;> simp_all [encode, decode, decodeArm, decodeCond, decodeMode2Imm, put_lo, put_hi, put_bit_lo, put_bit_hi, -BitVec.getLsbD_eq_getElem]

theorem ldrReg (c : Cond) (p : Bool) (u : Bool) (w : Bool) (rn : Reg) (rd : Reg) (sa : BitVec 5) (sh : Shift) (rm : Reg) : Statement (.ldrReg c p u w rn rd sa sh rm) := by
  intro h
  simp [Instr.encodable, notTForm] at h
  cases p <;> cases w <;> simp_all [encode, decode, decodeArm, decodeCond, decodeMode2Reg, put_lo, put_hi, put_bit_lo, put_bit_hi, -BitVec.getLsbD_eq_getElem]

theorem strImm (c : Cond) (p : Bool) (u : Bool) (w : Bool) (rn : Reg) (rd : Reg) (off : BitVec 12) : Statement (.strImm c p u w rn rd off) := by
  intro h
  simp [Instr.encodable, notTForm] at h
  cases p <;> cases w <;> simp_all [encode, decode, decodeArm, decodeCond, decodeMode2Imm, put_lo, put_hi, put_bit_lo, put_bit_hi, -BitVec.getLsbD_eq_getElem]

theorem strReg (c : Cond) (p : Bool) (u : Bool) (w : Bool) (rn : Reg) (rd : Reg) (sa : BitVec 5) (sh : Shift) (rm : Reg) : Statement (.strReg c p u w rn rd sa sh rm) := by
  intro h
  simp [Instr.encodable, notTForm] at h
  cases p <;> cases w <;> simp_all [encode, decode, decodeArm, decodeCond, decodeMode2Reg, put_lo, put_hi, put_bit_lo, put_bit_hi, -BitVec.getLsbD_eq_getElem]

theorem ldrbImm (c : Cond) (p : Bool) (u : Bool) (w : Bool) (rn : Reg) (rd : Reg) (off : BitVec 12) : Statement (.ldrbImm c p u w rn rd off) := by
  intro h
  simp [Instr.encodable, notTForm] at h
  cases p <;> cases w <;> simp_all [encode, decode, decodeArm, decodeCond, decodeMode2Imm, put_lo, put_hi, put_bit_lo, put_bit_hi, -BitVec.getLsbD_eq_getElem]

theorem ldrbReg (c : Cond) (p : Bool) (u : Bool) (w : Bool) (rn : Reg) (rd : Reg) (sa : BitVec 5) (sh : Shift) (rm : Reg) : Statement (.ldrbReg c p u w rn rd sa sh rm) := by
  intro h
  simp [Instr.encodable, notTForm] at h
  cases p <;> cases w <;> simp_all [encode, decode, decodeArm, decodeCond, decodeMode2Reg, put_lo, put_hi, put_bit_lo, put_bit_hi, -BitVec.getLsbD_eq_getElem]

theorem strbImm (c : Cond) (p : Bool) (u : Bool) (w : Bool) (rn : Reg) (rd : Reg) (off : BitVec 12) : Statement (.strbImm c p u w rn rd off) := by
  intro h
  simp [Instr.encodable, notTForm] at h
  cases p <;> cases w <;> simp_all [encode, decode, decodeArm, decodeCond, decodeMode2Imm, put_lo, put_hi, put_bit_lo, put_bit_hi, -BitVec.getLsbD_eq_getElem]

theorem strbReg (c : Cond) (p : Bool) (u : Bool) (w : Bool) (rn : Reg) (rd : Reg) (sa : BitVec 5) (sh : Shift) (rm : Reg) : Statement (.strbReg c p u w rn rd sa sh rm) := by
  intro h
  simp [Instr.encodable, notTForm] at h
  cases p <;> cases w <;> simp_all [encode, decode, decodeArm, decodeCond, decodeMode2Reg, put_lo, put_hi, put_bit_lo, put_bit_hi, -BitVec.getLsbD_eq_getElem]

theorem ldrtImm (c : Cond) (u : Bool) (rn : Reg) (rd : Reg) (off : BitVec 12) : Statement (.ldrtImm c u rn rd off) := by
  intro _
  simp [encode, decode, decodeArm, decodeCond, decodeMode2Imm, put_lo, put_hi, put_bit_lo, put_bit_hi, -BitVec.getLsbD_eq_getElem]

theorem ldrtReg (c : Cond) (u : Bool) (rn : Reg) (rd : Reg) (sa : BitVec 5) (sh : Shift) (rm : Reg) : Statement (.ldrtReg c u rn rd sa sh rm) := by
  intro _
  simp [encode, decode, decodeArm, decodeCond, decodeMode2Reg, put_lo, put_hi, put_bit_lo, put_bit_hi, -BitVec.getLsbD_eq_getElem]

theorem strtImm (c : Cond) (u : Bool) (rn : Reg) (rd : Reg) (off : BitVec 12) : Statement (.strtImm c u rn rd off) := by
  intro _
  simp [encode, decode, decodeArm, decodeCond, decodeMode2Imm, put_lo, put_hi, put_bit_lo, put_bit_hi, -BitVec.getLsbD_eq_getElem]

theorem strtReg (c : Cond) (u : Bool) (rn : Reg) (rd : Reg) (sa : BitVec 5) (sh : Shift) (rm : Reg) : Statement (.strtReg c u rn rd sa sh rm) := by
  intro _
  simp [encode, decode, decodeArm, decodeCond, decodeMode2Reg, put_lo, put_hi, put_bit_lo, put_bit_hi, -BitVec.getLsbD_eq_getElem]

theorem ldrbtImm (c : Cond) (u : Bool) (rn : Reg) (rd : Reg) (off : BitVec 12) : Statement (.ldrbtImm c u rn rd off) := by
  intro _
  simp [encode, decode, decodeArm, decodeCond, decodeMode2Imm, put_lo, put_hi, put_bit_lo, put_bit_hi, -BitVec.getLsbD_eq_getElem]

theorem ldrbtReg (c : Cond) (u : Bool) (rn : Reg) (rd : Reg) (sa : BitVec 5) (sh : Shift) (rm : Reg) : Statement (.ldrbtReg c u rn rd sa sh rm) := by
  intro _
  simp [encode, decode, decodeArm, decodeCond, decodeMode2Reg, put_lo, put_hi, put_bit_lo, put_bit_hi, -BitVec.getLsbD_eq_getElem]

theorem strbtImm (c : Cond) (u : Bool) (rn : Reg) (rd : Reg) (off : BitVec 12) : Statement (.strbtImm c u rn rd off) := by
  intro _
  simp [encode, decode, decodeArm, decodeCond, decodeMode2Imm, put_lo, put_hi, put_bit_lo, put_bit_hi, -BitVec.getLsbD_eq_getElem]

theorem strbtReg (c : Cond) (u : Bool) (rn : Reg) (rd : Reg) (sa : BitVec 5) (sh : Shift) (rm : Reg) : Statement (.strbtReg c u rn rd sa sh rm) := by
  intro _
  simp [encode, decode, decodeArm, decodeCond, decodeMode2Reg, put_lo, put_hi, put_bit_lo, put_bit_hi, -BitVec.getLsbD_eq_getElem]

theorem ldrhImm (c : Cond) (p : Bool) (u : Bool) (w : Bool) (rn : Reg) (rd : Reg) (immH : BitVec 4) (immL : BitVec 4) : Statement (.ldrhImm c p u w rn rd immH immL) := by
  intro _
  simp [encode, decode, decodeArm, decodeCond, decodeMode3, put_lo, put_hi, put_bit_lo, put_bit_hi, -BitVec.getLsbD_eq_getElem]

theorem ldrhReg (c : Cond) (p : Bool) (u : Bool) (w : Bool) (rn : Reg) (rd : Reg) (z : BitVec 4) (rm : Reg) : Statement (.ldrhReg c p u w rn rd z rm) := by
  intro _
  simp [encode, decode, decodeArm, decodeCond, decodeMode3, put_lo, put_hi, put_bit_lo, put_bit_hi, -BitVec.getLsbD_eq_getElem]

theorem strhImm (c : Cond) (p : Bool) (u : Bool) (w : Bool) (rn : Reg) (rd : Reg) (immH : BitVec 4) (immL : BitVec 4) : Statement (.strhImm c p u w rn rd immH immL) := by
  intro _
  simp [encode, decode, decodeArm, decodeCond, decodeMode3, put_lo, put_hi, put_bit_lo, put_bit_hi, -BitVec.getLsbD_eq_getElem]

theorem strhReg (c : Cond) (p : Bool) (u : Bool) (w : Bool) (rn : Reg) (rd : Reg) (z : BitVec 4) (rm : Reg) : Statement (.strhReg c p u w rn rd z rm) := by
  intro _
  simp [encode, decode, decodeArm, decodeCond, decodeMode3, put_lo, put_hi, put_bit_lo, put_bit_hi, -BitVec.getLsbD_eq_getElem]

theorem ldrsbImm (c : Cond) (p : Bool) (u : Bool) (w : Bool) (rn : Reg) (rd : Reg) (immH : BitVec 4) (immL : BitVec 4) : Statement (.ldrsbImm c p u w rn rd immH immL) := by
  intro _
  simp [encode, decode, decodeArm, decodeCond, decodeMode3, put_lo, put_hi, put_bit_lo, put_bit_hi, -BitVec.getLsbD_eq_getElem]

theorem ldrsbReg (c : Cond) (p : Bool) (u : Bool) (w : Bool) (rn : Reg) (rd : Reg) (z : BitVec 4) (rm : Reg) : Statement (.ldrsbReg c p u w rn rd z rm) := by
  intro _
  simp [encode, decode, decodeArm, decodeCond, decodeMode3, put_lo, put_hi, put_bit_lo, put_bit_hi, -BitVec.getLsbD_eq_getElem]

theorem ldrshImm (c : Cond) (p : Bool) (u : Bool) (w : Bool) (rn : Reg) (rd : Reg) (immH : BitVec 4) (immL : BitVec 4) : Statement (.ldrshImm c p u w rn rd immH immL) := by
  intro _
  simp [encode, decode, decodeArm, decodeCond, decodeMode3, put_lo, put_hi, put_bit_lo, put_bit_hi, -BitVec.getLsbD_eq_getElem]

theorem ldrshReg (c : Cond) (p : Bool) (u : Bool) (w : Bool) (rn : Reg) (rd : Reg) (z : BitVec 4) (rm : Reg) : Statement (.ldrshReg c p u w rn rd z rm) := by
  intro _
  simp [encode, decode, decodeArm, decodeCond, decodeMode3, put_lo, put_hi, put_bit_lo, put_bit_hi, -BitVec.getLsbD_eq_getElem]

theorem ldrdImm (c : Cond) (p : Bool) (u : Bool) (w : Bool) (rn : Reg) (rd : Reg) (immH : BitVec 4) (immL : BitVec 4) : Statement (.ldrdImm c p u w rn rd immH immL) := by
  intro _
  simp [encode, decode, decodeArm, decodeCond, decodeMode3, put_lo, put_hi, put_bit_lo, put_bit_hi, -BitVec.getLsbD_eq_getElem]

theorem ldrdReg (c : Cond) (p : Bool) (u : Bool) (w : Bool) (rn : Reg) (rd : Reg) (z : BitVec 4) (rm : Reg) : Statement (.ldrdReg c p u w rn rd z rm) := by
  intro _
  simp [encode, decode, decodeArm, decodeCond, decodeMode3, put_lo, put_hi, put_bit_lo, put_bit_hi, -BitVec.getLsbD_eq_getElem]

theorem strdImm (c : Cond) (p : Bool) (u : Bool) (w : Bool) (rn : Reg) (rd : Reg) (immH : BitVec 4) (immL : BitVec 4) : Statement (.strdImm c p u w rn rd immH immL) := by
  intro _
  simp [encode, decode, decodeArm, decodeCond, decodeMode3, put_lo, put_hi, put_bit_lo, put_bit_hi, -BitVec.getLsbD_eq_getElem]

theorem strdReg (c : Cond) (p : Bool) (u : Bool) (w : Bool) (rn : Reg) (rd : Reg) (z : BitVec 4) (rm : Reg) : Statement (.strdReg c p u w rn rd z rm) := by
  intro _
  simp [encode, decode, decodeArm, decodeCond, decodeMode3, put_lo, put_hi, put_bit_lo, put_bit_hi, -BitVec.getLsbD_eq_getElem]

theorem pldImm (u : Bool) (rn : Reg) (off : BitVec 12) : Statement (.pldImm u rn off) := by
  intro _
  simp [encode, decode, decodeArm, decodeUncond, Cond.ofBits, put_lo, put_hi, put_bit_lo, put_bit_hi, -BitVec.getLsbD_eq_getElem]

theorem pldReg (u : Bool) (rn : Reg) (sa : BitVec 5) (sh : Shift) (rm : Reg) : Statement (.pldReg u rn sa sh rm) := by
  intro _
  simp [encode, decode, decodeArm, decodeUncond, Cond.ofBits, put_lo, put_hi, put_bit_lo, put_bit_hi, -BitVec.getLsbD_eq_getElem]

theorem ldm1 (c : Cond) (p : Bool) (u : Bool) (w : Bool) (rn : Reg) (list : BitVec 16) : Statement (.ldm1 c p u w rn list) := by
  intro _
  simp [encode, decode, decodeArm, decodeCond, decodeMulti, put_lo, put_hi, put_bit_lo, put_bit_hi, -BitVec.getLsbD_eq_getElem]

theorem ldm2 (c : Cond) (p : Bool) (u : Bool) (z : BitVec 1) (rn : Reg) (list : BitVec 15) : Statement (.ldm2 c p u z rn list) := by
  intro _
  simp [encode, decode, decodeArm, decodeCond, decodeMulti, put_lo, put_hi, put_bit_lo, put_bit_hi, -BitVec.getLsbD_eq_getElem]

theorem ldm3 (c : Cond) (p : Bool) (u : Bool) (w : Bool) (rn : Reg) (list : BitVec 15) : Statement (.ldm3 c p u w rn list) := by
  intro _
  simp [encode, decode, decodeArm, decodeCond, decodeMulti, put_lo, put_hi, put_bit_lo, put_bit_hi, -BitVec.getLsbD_eq_getElem]

theorem stm1 (c : Cond) (p : Bool) (u : Bool) (w : Bool) (rn : Reg) (list : BitVec 16) : Statement (.stm1 c p u w rn list) := by
  intro _
  simp [encode, decode, decodeArm, decodeCond, decodeMulti, put_lo, put_hi, put_bit_lo, put_bit_hi, -BitVec.getLsbD_eq_getElem]

theorem stm2 (c : Cond) (p : Bool) (u : Bool) (z : BitVec 1) (rn : Reg) (list : BitVec 16) : Statement (.stm2 c p u z rn list) := by
  intro _
  simp [encode, decode, decodeArm, decodeCond, decodeMulti, put_lo, put_hi, put_bit_lo, put_bit_hi, -BitVec.getLsbD_eq_getElem]

theorem swp (c : Cond) (rn : Reg) (rd : Reg) (z : BitVec 4) (rm : Reg) : Statement (.swp c rn rd z rm) := by
  intro _
  simp [encode, decode, decodeArm, decodeCond, decodeMul, put_lo, put_hi, put_bit_lo, put_bit_hi, -BitVec.getLsbD_eq_getElem]

theorem swpb (c : Cond) (rn : Reg) (rd : Reg) (z : BitVec 4) (rm : Reg) : Statement (.swpb c rn rd z rm) := by
  intro _
  simp [encode, decode, decodeArm, decodeCond, decodeMul, put_lo, put_hi, put_bit_lo, put_bit_hi, -BitVec.getLsbD_eq_getElem]

theorem cdp (c : Cond) (op1 : BitVec 4) (crn : BitVec 4) (crd : BitVec 4) (cp : BitVec 4) (op2 : BitVec 3) (crm : BitVec 4) : Statement (.cdp c op1 crn crd cp op2 crm) := by
  intro _
  simp [encode, decode, decodeArm, decodeCond, decodeCopReg, put_lo, put_hi, put_bit_lo, put_bit_hi, -BitVec.getLsbD_eq_getElem]

theorem ldc (c : Cond) (p : Bool) (u : Bool) (n : Bool) (w : Bool) (rn : Reg) (crd : BitVec 4) (cp : BitVec 4) (off : BitVec 8) : Statement (.ldc c p u n w rn crd cp off) := by
  intro h
  simp [Instr.encodable, notMcrr] at h
  cases p <;> cases u <;> cases n <;> cases w <;> simp_all [encode, decode, decodeArm, decodeCond, decodeCopMem, mcrr_bits, put_lo, put_hi, put_bit_lo, put_bit_hi, -BitVec.getLsbD_eq_getElem]

theorem stc (c : Cond) (p : Bool) (u : Bool) (n : Bool) (w : Bool) (rn : Reg) (crd : BitVec 4) (cp : BitVec 4) (off : BitVec 8) : Statement (.stc c p u n w rn crd cp off) := by
  intro h
  simp [Instr.encodable, notMcrr] at h
  cases p <;> cases u <;> cases n <;> cases w <;> simp_all [encode, decode, decodeArm, decodeCond, decodeCopMem, mcrr_bits, put_lo, put_hi, put_bit_lo, put_bit_hi, -BitVec.getLsbD_eq_getElem]

theorem mcr (c : Cond) (op1 : BitVec 3) (crn : BitVec 4) (rd : Reg) (cp : BitVec 4) (op2 : BitVec 3) (crm : BitVec 4) : Statement (.mcr c op1 crn rd cp op2 crm) := by
  intro h
  simp [Instr.encodable, otherCp] at h
  simp_all [encode, decode, decodeArm, decodeCond, decodeCopReg, put_lo, put_hi, put_bit_lo, put_bit_hi, -BitVec.getLsbD_eq_getElem]

theorem mrc (c : Cond) (op1 : BitVec 3) (crn : BitVec 4) (rd : Reg) (cp : BitVec 4) (op2 : BitVec 3) (crm : BitVec 4) : Statement (.mrc c op1 crn rd cp op2 crm) := by
  intro h
  simp [Instr.encodable, otherCp] at h
  simp_all [encode, decode, decodeArm, decodeCond, decodeCopReg, put_lo, put_hi, put_bit_lo, put_bit_hi, -BitVec.getLsbD_eq_getElem]

theorem mcrr (c : Cond) (rn : Reg) (rd : Reg) (cp : BitVec 4) (op1 : BitVec 4) (crm : BitVec 4) : Statement (.mcrr c rn rd cp op1 crm) := by
  intro _
  simp [encode, decode, decodeArm, decodeCond, decodeCopMem, put_lo, put_hi, put_bit_lo, put_bit_hi, -BitVec.getLsbD_eq_getElem]

theorem mrrc (c : Cond) (rn : Reg) (rd : Reg) (cp : BitVec 4) (op1 : BitVec 4) (crm : BitVec 4) : Statement (.mrrc c rn rd cp op1 crm) := by
  intro _
  simp [encode, decode, decodeArm, decodeCond, decodeCopMem, put_lo, put_hi, put_bit_lo, put_bit_hi, -BitVec.getLsbD_eq_getElem]

theorem cdp2 (op1 : BitVec 4) (crn : BitVec 4) (crd : BitVec 4) (cp : BitVec 4) (op2 : BitVec 3) (crm : BitVec 4) : Statement (.cdp2 op1 crn crd cp op2 crm) := by
  intro _
  simp [encode, decode, decodeArm, decodeUncond, Cond.ofBits, put_lo, put_hi, put_bit_lo, put_bit_hi, -BitVec.getLsbD_eq_getElem]

theorem ldc2 (p : Bool) (u : Bool) (n : Bool) (w : Bool) (rn : Reg) (crd : BitVec 4) (cp : BitVec 4) (off : BitVec 8) : Statement (.ldc2 p u n w rn crd cp off) := by
  intro h
  simp [Instr.encodable, notMcrr] at h
  cases p <;> cases u <;> cases n <;> cases w <;> simp_all [encode, decode, decodeArm, decodeUncond, Cond.ofBits, mcrr_bits, put_lo, put_hi, put_bit_lo, put_bit_hi, -BitVec.getLsbD_eq_getElem]

theorem stc2 (p : Bool) (u : Bool) (n : Bool) (w : Bool) (rn : Reg) (crd : BitVec 4) (cp : BitVec 4) (off : BitVec 8) : Statement (.stc2 p u n w rn crd cp off) := by
  intro h
  simp [Instr.encodable, notMcrr] at h
  cases p <;> cases u <;> cases n <;> cases w <;> simp_all [encode, decode, decodeArm, decodeUncond, Cond.ofBits, mcrr_bits, put_lo, put_hi, put_bit_lo, put_bit_hi, -BitVec.getLsbD_eq_getElem]

theorem mcr2 (op1 : BitVec 3) (crn : BitVec 4) (rd : Reg) (cp : BitVec 4) (op2 : BitVec 3) (crm : BitVec 4) : Statement (.mcr2 op1 crn rd cp op2 crm) := by
  intro _
  simp [encode, decode, decodeArm, decodeUncond, Cond.ofBits, put_lo, put_hi, put_bit_lo, put_bit_hi, -BitVec.getLsbD_eq_getElem]

theorem mrc2 (op1 : BitVec 3) (crn : BitVec 4) (rd : Reg) (cp : BitVec 4) (op2 : BitVec 3) (crm : BitVec 4) : Statement (.mrc2 op1 crn rd cp op2 crm) := by
  intro _
  simp [encode, decode, decodeArm, decodeUncond, Cond.ofBits, put_lo, put_hi, put_bit_lo, put_bit_hi, -BitVec.getLsbD_eq_getElem]

theorem mcr15 (c : Cond) (op1 : BitVec 3) (crn : BitVec 4) (rd : Reg) (op2 : BitVec 3) (crm : BitVec 4) : Statement (.mcr15 c op1 crn rd op2 crm) := by
  intro _
  simp [encode, decode, decodeArm, decodeCond, decodeCopReg, put_lo, put_hi, put_bit_lo, put_bit_hi, -BitVec.getLsbD_eq_getElem]

theorem mrc15 (c : Cond) (op1 : BitVec 3) (crn : BitVec 4) (rd : Reg) (op2 : BitVec 3) (crm : BitVec 4) : Statement (.mrc15 c op1 crn rd op2 crm) := by
  intro _
  simp [encode, decode, decodeArm, decodeCond, decodeCopReg, put_lo, put_hi, put_bit_lo, put_bit_hi, -BitVec.getLsbD_eq_getElem]

theorem mcr14 (c : Cond) (op1 : BitVec 3) (crn : BitVec 4) (rd : Reg) (op2 : BitVec 3) (crm : BitVec 4) : Statement (.mcr14 c op1 crn rd op2 crm) := by
  intro _
  simp [encode, decode, decodeArm, decodeCond, decodeCopReg, put_lo, put_hi, put_bit_lo, put_bit_hi, -BitVec.getLsbD_eq_getElem]

theorem mrc14 (c : Cond) (op1 : BitVec 3) (crn : BitVec 4) (rd : Reg) (op2 : BitVec 3) (crm : BitVec 4) : Statement (.mrc14 c op1 crn rd op2 crm) := by
  intro _
  simp [encode, decode, decodeArm, decodeCond, decodeCopReg, put_lo, put_hi, put_bit_lo, put_bit_hi, -BitVec.getLsbD_eq_getElem]

theorem undefMedia (c : Cond) (ig1 : BitVec 20) (ig2 : BitVec 4) : Statement (.undefMedia c ig1 ig2) := by
  intro _
  simp [encode, decode, decodeArm, decodeCond, put_lo, put_hi, put_bit_lo, put_bit_hi, -BitVec.getLsbD_eq_getElem]

theorem undefMisc (c : Cond) (ig1 : BitVec 1) (ig2 : BitVec 20) : Statement (.undefMisc c ig1 ig2) := by
  intro _
  simp [encode, decode, decodeArm, decodeCond, put_lo, put_hi, put_bit_lo, put_bit_hi, -BitVec.getLsbD_eq_getElem]

theorem tLslImm (imm : BitVec 5) (rm : LReg) (rd : LReg) : Statement (.tLslImm imm rm rd) := by
  intro _
  simp [encode, decode, decodeThumb, decodeThumb0, put_lo, put_hi, put_bit_lo, put_bit_hi, -BitVec.getLsbD_eq_getElem]

theorem tLsrImm (imm : BitVec 5) (rm : LReg) (rd : LReg) : Statement (.tLsrImm imm rm rd) := by
  intro _
  simp [encode, decode, decodeThumb, decodeThumb0, put_lo, put_hi, put_bit_lo, put_bit_hi, -BitVec.getLsbD_eq_getElem]

theorem tAsrImm (imm : BitVec 5) (rm : LReg) (rd : LReg) : Statement (.tAsrImm imm rm rd) := by
  intro _
  simp [encode, decode, decodeThumb, decodeThumb0, put_lo, put_hi, put_bit_lo, put_bit_hi, -BitVec.getLsbD_eq_getElem]

theorem tAddReg (rm : LReg) (rn : LReg) (rd : LReg) : Statement (.tAddReg rm rn rd) := by
  intro _
  simp [encode, decode, decodeThumb, decodeThumb0, put_lo, put_hi, put_bit_lo, put_bit_hi, -BitVec.getLsbD_eq_getElem]

theorem tSubReg (rm : LReg) (rn : LReg) (rd : LReg) : Statement (.tSubReg rm rn rd) := by
  intro _
  simp [encode, decode, decodeThumb, decodeThumb0, put_lo, put_hi, put_bit_lo, put_bit_hi, -BitVec.getLsbD_eq_getElem]

theorem tAddImm3 (imm : BitVec 3) (rn : LReg) (rd : LReg) : Statement (.tAddImm3 imm rn rd) := by
  intro _
  simp [encode, decode, decodeThumb, decodeThumb0, put_lo, put_hi, put_bit_lo, put_bit_hi, -BitVec.getLsbD_eq_getElem]

theorem tSubImm3 (imm : BitVec 3) (rn : LReg) (rd : LReg) : Statement (.tSubImm3 imm rn rd) := by
  intro _
  simp [encode, decode, decodeThumb, decodeThumb0, put_lo, put_hi, put_bit_lo, put_bit_hi, -BitVec.getLsbD_eq_getElem]

theorem tMovImm (rd : LReg) (imm : BitVec 8) : Statement (.tMovImm rd imm) := by
  intro _
  simp [encode, decode, decodeThumb, decodeThumb1, put_lo, put_hi, put_bit_lo, put_bit_hi, -BitVec.getLsbD_eq_getElem]

theorem tCmpImm (rn : LReg) (imm : BitVec 8) : Statement (.tCmpImm rn imm) := by
  intro _
  simp [encode, decode, decodeThumb, decodeThumb1, put_lo, put_hi, put_bit_lo, put_bit_hi, -BitVec.getLsbD_eq_getElem]

theorem tAddImm8 (rd : LReg) (imm : BitVec 8) : Statement (.tAddImm8 rd imm) := by
  intro _
  simp [encode, decode, decodeThumb, decodeThumb1, put_lo, put_hi, put_bit_lo, put_bit_hi, -BitVec.getLsbD_eq_getElem]

theorem tSubImm8 (rd : LReg) (imm : BitVec 8) : Statement (.tSubImm8 rd imm) := by
  intro _
  simp [encode, decode, decodeThumb, decodeThumb1, put_lo, put_hi, put_bit_lo, put_bit_hi, -BitVec.getLsbD_eq_getElem]

theorem tAnd (rm : LReg) (rd : LReg) : Statement (.tAnd rm rd) := by
  intro _
  simp [encode, decode, decodeThumb, decodeThumb2, decodeThumbDp, put_lo, put_hi, put_bit_lo, put_bit_hi, -BitVec.getLsbD_eq_getElem]

theorem tEor (rm : LReg) (rd : LReg) : Statement (.tEor rm rd) := by
  intro _
  simp [encode, decode, decodeThumb, decodeThumb2, decodeThumbDp, put_lo, put_hi, put_bit_lo, put_bit_hi, -BitVec.getLsbD_eq_getElem]

theorem tLslReg (rs : LReg) (rd : LReg) : Statement (.tLslReg rs rd) := by
  intro _
  simp [encode, decode, decodeThumb, decodeThumb2, decodeThumbDp, put_lo, put_hi, put_bit_lo, put_bit_hi, -BitVec.getLsbD_eq_getElem]

theorem tLsrReg (rs : LReg) (rd : LReg) : Statement (.tLsrReg rs rd) := by
  intro _
  simp [encode, decode, decodeThumb, decodeThumb2, decodeThumbDp, put_lo, put_hi, put_bit_lo, put_bit_hi, -BitVec.getLsbD_eq_getElem]

theorem tAsrReg (rs : LReg) (rd : LReg) : Statement (.tAsrReg rs rd) := by
  intro _
  simp [encode, decode, decodeThumb, decodeThumb2, decodeThumbDp, put_lo, put_hi, put_bit_lo, put_bit_hi, -BitVec.getLsbD_eq_getElem]

theorem tAdc (rm : LReg) (rd : LReg) : Statement (.tAdc rm rd) := by
  intro _
  simp [encode, decode, decodeThumb, decodeThumb2, decodeThumbDp, put_lo, put_hi, put_bit_lo, put_bit_hi, -BitVec.getLsbD_eq_getElem]

theorem tSbc (rm : LReg) (rd : LReg) : Statement (.tSbc rm rd) := by
  intro _
  simp [encode, decode, decodeThumb, decodeThumb2, decodeThumbDp, put_lo, put_hi, put_bit_lo, put_bit_hi, -BitVec.getLsbD_eq_getElem]

theorem tRor (rs : LReg) (rd : LReg) : Statement (.tRor rs rd) := by
  intro _
  simp [encode, decode, decodeThumb, decodeThumb2, decodeThumbDp, put_lo, put_hi, put_bit_lo, put_bit_hi, -BitVec.getLsbD_eq_getElem]

theorem tTst (rm : LReg) (rn : LReg) : Statement (.tTst rm rn) := by
  intro _
  simp [encode, decode, decodeThumb, decodeThumb2, decodeThumbDp, put_lo, put_hi, put_bit_lo, put_bit_hi, -BitVec.getLsbD_eq_getElem]

theorem tNeg (rm : LReg) (rd : LReg) : Statement (.tNeg rm rd) := by
  intro _
  simp [encode, decode, decodeThumb, decodeThumb2, decodeThumbDp, put_lo, put_hi, put_bit_lo, put_bit_hi, -BitVec.getLsbD_eq_getElem]

theorem tCmpReg (rm : LReg) (rn : LReg) : Statement (.tCmpReg rm rn) := by
  intro _
  simp [encode, decode, decodeThumb, decodeThumb2, decodeThumbDp, put_lo, put_hi, put_bit_lo, put_bit_hi, -BitVec.getLsbD_eq_getElem]

theorem tCmn (rm : LReg) (rn : LReg) : Statement (.tCmn rm rn) := by
  intro _
  simp [encode, decode, decodeThumb, decodeThumb2, decodeThumbDp, put_lo, put_hi, put_bit_lo, put_bit_hi, -BitVec.getLsbD_eq_getElem]

theorem tOrr (rm : LReg) (rd : LReg) : Statement (.tOrr rm rd) := by
  intro _
  simp [encode, decode, decodeThumb, decodeThumb2, decodeThumbDp, put_lo, put_hi, put_bit_lo, put_bit_hi, -BitVec.getLsbD_eq_getElem]

theorem tMul (rm : LReg) (rd : LReg) : Statement (.tMul rm rd) := by
  intro _
  simp [encode, decode, decodeThumb, decodeThumb2, decodeThumbDp, put_lo, put_hi, put_bit_lo, put_bit_hi, -BitVec.getLsbD_eq_getElem]

theorem tBic (rm : LReg) (rd : LReg) : Statement (.tBic rm rd) := by
  intro _
  simp [encode, decode, decodeThumb, decodeThumb2, decodeThumbDp, put_lo, put_hi, put_bit_lo, put_bit_hi, -BitVec.getLsbD_eq_getElem]

theorem tMvn (rm : LReg) (rd : LReg) : Statement (.tMvn rm rd) := by
  intro _
  simp [encode, decode, decodeThumb, decodeThumb2, decodeThumbDp, put_lo, put_hi, put_bit_lo, put_bit_hi, -BitVec.getLsbD_eq_getElem]

theorem tAddHi (h1 : Bool) (h2 : Bool) (rm : LReg) (rd : LReg) : Statement (.tAddHi h1 h2 rm rd) := by
  intro _
  simp [encode, decode, decodeThumb, decodeThumb2, put_lo, put_hi, put_bit_lo, put_bit_hi, -BitVec.getLsbD_eq_getElem]

theorem tCmpHi (h1 : Bool) (h2 : Bool) (rm : LReg) (rn : LReg) : Statement (.tCmpHi h1 h2 rm rn) := by
  intro _
  simp [encode, decode, decodeThumb, decodeThumb2, put_lo, put_hi, put_bit_lo, put_bit_hi, -BitVec.getLsbD_eq_getElem]

theorem tMovHi (h1 : Bool) (h2 : Bool) (rm : LReg) (rd : LReg) : Statement (.tMovHi h1 h2 rm rd) := by
  intro _
  simp [encode, decode, decodeThumb, decodeThumb2, put_lo, put_hi, put_bit_lo, put_bit_hi, -BitVec.getLsbD_eq_getElem]

theorem tAddPc (rd : LReg) (imm : BitVec 8) : Statement (.tAddPc rd imm) := by
  intro _
  simp [encode, decode, decodeThumb, decodeThumb5, put_lo, put_hi, put_bit_lo, put_bit_hi, -BitVec.getLsbD_eq_getElem]

theorem tAddSp (rd : LReg) (imm : BitVec 8) : Statement (.tAddSp rd imm) := by
  intro _
  simp [encode, decode, decodeThumb, decodeThumb5, put_lo, put_hi, put_bit_lo, put_bit_hi, -BitVec.getLsbD_eq_getElem]

theorem tIncSp (imm : BitVec 7) : Statement (.tIncSp imm) := by
  intro _
  simp [encode, decode, decodeThumb, decodeThumb5, put_lo, put_hi, put_bit_lo, put_bit_hi, -BitVec.getLsbD_eq_getElem]

theorem tDecSp (imm : BitVec 7) : Statement (.tDecSp imm) := by
  intro _
  simp [encode, decode, decodeThumb, decodeThumb5, put_lo, put_hi, put_bit_lo, put_bit_hi, -BitVec.getLsbD_eq_getElem]

theorem tBx (h2 : Bool) (rm : LReg) (z : BitVec 3) : Statement (.tBx h2 rm z) := by
  intro _
  simp [encode, decode, decodeThumb, decodeThumb2, put_lo, put_hi, put_bit_lo, put_bit_hi, -BitVec.getLsbD_eq_getElem]

theorem tBlxReg (h2 : Bool) (rm : LReg) (z : BitVec 3) : Statement (.tBlxReg h2 rm z) := by
  intro _
  simp [encode, decode, decodeThumb, decodeThumb2, put_lo, put_hi, put_bit_lo, put_bit_hi, -BitVec.getLsbD_eq_getElem]

theorem tLdrPc (rd : LReg) (imm : BitVec 8) : Statement (.tLdrPc rd imm) := by
  intro _
  simp [encode, decode, decodeThumb, decodeThumb2, put_lo, put_hi, put_bit_lo, put_bit_hi, -BitVec.getLsbD_eq_getElem]

theorem tStrReg (rm : LReg) (rn : LReg) (rd : LReg) : Statement (.tStrReg rm rn rd) := by
  intro _
  simp [encode, decode, decodeThumb, decodeThumb2, decodeThumbMemReg, put_lo, put_hi, put_bit_lo, put_bit_hi, -BitVec.getLsbD_eq_getElem]

theorem tStrhReg (rm : LReg) (rn : LReg) (rd : LReg) : Statement (.tStrhReg rm rn rd) := by
  intro _
  simp [encode, decode, decodeThumb, decodeThumb2, decodeThumbMemReg, put_lo, put_hi, put_bit_lo, put_bit_hi, -BitVec.getLsbD_eq_getElem]

theorem tStrbReg (rm : LReg) (rn : LReg) (rd : LReg) : Statement (.tStrbReg rm rn rd) := by
  intro _
  simp [encode, decode, decodeThumb, decodeThumb2, decodeThumbMemReg, put_lo, put_hi, put_bit_lo, put_bit_hi, -BitVec.getLsbD_eq_getElem]

theorem tLdrsb (rm : LReg) (rn : LReg) (rd : LReg) : Statement (.tLdrsb rm rn rd) := by
  intro _
  simp [encode, decode, decodeThumb, decodeThumb2, decodeThumbMemReg, put_lo, put_hi, put_bit_lo, put_bit_hi, -BitVec.getLsbD_eq_getElem]

theorem tLdrReg (rm : LReg) (rn : LReg) (rd : LReg) : Statement (.tLdrReg rm rn rd) := by
  intro _
  simp [encode, decode, decodeThumb, decodeThumb2, decodeThumbMemReg, put_lo, put_hi, put_bit_lo, put_bit_hi, -BitVec.getLsbD_eq_getElem]

theorem tLdrhReg (rm : LReg) (rn : LReg) (rd : LReg) : Statement (.tLdrhReg rm rn rd) := by
  intro _
  simp [encode, decode, decodeThumb, decodeThumb2, decodeThumbMemReg, put_lo, put_hi, put_bit_lo, put_bit_hi, -BitVec.getLsbD_eq_getElem]

theorem tLdrbReg (rm : LReg) (rn : LReg) (rd : LReg) : Statement (.tLdrbReg rm rn rd) := by
  intro _
  simp [encode, decode, decodeThumb, decodeThumb2, decodeThumbMemReg, put_lo, put_hi, put_bit_lo, put_bit_hi, -BitVec.getLsbD_eq_getElem]

theorem tLdrsh (rm : LReg) (rn : LReg) (rd : LReg) : Statement (.tLdrsh rm rn rd) := by
  intro _
  simp [encode, decode, decodeThumb, decodeThumb2, decodeThumbMemReg, put_lo, put_hi, put_bit_lo, put_bit_hi, -BitVec.getLsbD_eq_getElem]

theorem tStrImm (imm : BitVec 5) (rn : LReg) (rd : LReg) : Statement (.tStrImm imm rn rd) := by
  intro _
  simp [encode, decode, decodeThumb, decodeThumb3, put_lo, put_hi, put_bit_lo, put_bit_hi, -BitVec.getLsbD_eq_getElem]

theorem tLdrImm (imm : BitVec 5) (rn : LReg) (rd : LReg) : Statement (.tLdrImm imm rn rd) := by
  intro _
  simp [encode, decode, decodeThumb, decodeThumb3, put_lo, put_hi, put_bit_lo, put_bit_hi, -BitVec.getLsbD_eq_getElem]

theorem tStrbImm (imm : BitVec 5) (rn : LReg) (rd : LReg) : Statement (.tStrbImm imm rn rd) := by
  intro _
  simp [encode, decode, decodeThumb, decodeThumb3, put_lo, put_hi, put_bit_lo, put_bit_hi, -BitVec.getLsbD_eq_getElem]

theorem tLdrbImm (imm : BitVec 5) (rn : LReg) (rd : LReg) : Statement (.tLdrbImm imm rn rd) := by
  intro _
  simp [encode, decode, decodeThumb, decodeThumb3, put_lo, put_hi, put_bit_lo, put_bit_hi, -BitVec.getLsbD_eq_getElem]

theorem tStrhImm (imm : BitVec 5) (rn : LReg) (rd : LReg) : Statement (.tStrhImm imm rn rd) := by
  intro _
  simp [encode, decode, decodeThumb, decodeThumb4, put_lo, put_hi, put_bit_lo, put_bit_hi, -BitVec.getLsbD_eq_getElem]

theorem tLdrhImm (imm : BitVec 5) (rn : LReg) (rd : LReg) : Statement (.tLdrhImm imm rn rd) := by
  intro _
  simp [encode, decode, decodeThumb, decodeThumb4, put_lo, put_hi, put_bit_lo, put_bit_hi, -BitVec.getLsbD_eq_getElem]

theorem tStrSp (rd : LReg) (imm : BitVec 8) : Statement (.tStrSp rd imm) := by
  intro _
  simp [encode, decode, decodeThumb, decodeThumb4, put_lo, put_hi, put_bit_lo, put_bit_hi, -BitVec.getLsbD_eq_getElem]

theorem tLdrSp (rd : LReg) (imm : BitVec 8) : Statement (.tLdrSp rd imm) := by
  intro _
  simp [encode, decode, decodeThumb, decodeThumb4, put_lo, put_hi, put_bit_lo, put_bit_hi, -BitVec.getLsbD_eq_getElem]

theorem tPush (r : Bool) (list : BitVec 8) : Statement (.tPush r list) := by
  intro _
  simp [encode, decode, decodeThumb, decodeThumb5, put_lo, put_hi, put_bit_lo, put_bit_hi, -BitVec.getLsbD_eq_getElem]

theorem tPop (r : Bool) (list : BitVec 8) : Statement (.tPop r list) := by
  intro _
  simp [encode, decode, decodeThumb, decodeThumb5, put_lo, put_hi, put_bit_lo, put_bit_hi, -BitVec.getLsbD_eq_getElem]

theorem tBkpt (imm : BitVec 8) : Statement (.tBkpt imm) := by
  intro _
  simp [encode, decode, decodeThumb, decodeThumb5, put_lo, put_hi, put_bit_lo, put_bit_hi, -BitVec.getLsbD_eq_getElem]

theorem tStmia (rn : LReg) (list : BitVec 8) : Statement (.tStmia rn list) := by
  intro _
  simp [encode, decode, decodeThumb, decodeThumb6, put_lo, put_hi, put_bit_lo, put_bit_hi, -BitVec.getLsbD_eq_getElem]

theorem tLdmia (rn : LReg) (list : BitVec 8) : Statement (.tLdmia rn list) := by
  intro _
  simp [encode, decode, decodeThumb, decodeThumb6, put_lo, put_hi, put_bit_lo, put_bit_hi, -BitVec.getLsbD_eq_getElem]

theorem tBCond (c : Cond) (off : BitVec 8) : Statement (.tBCond c off) := by
  intro h
  simp [Instr.encodable] at h
  simp_all [encode, decode, decodeThumb, decodeThumb6, put_lo, put_hi, put_bit_lo, put_bit_hi, -BitVec.getLsbD_eq_getElem]

theorem tUndef (ig : BitVec 8) : Statement (.tUndef ig) := by
  intro _
  simp [encode, decode, decodeThumb, decodeThumb6, Cond.ofBits, put_lo, put_hi, put_bit_lo, put_bit_hi, -BitVec.getLsbD_eq_getElem]

theorem tSwi (imm : BitVec 8) : Statement (.tSwi imm) := by
  intro _
  simp [encode, decode, decodeThumb, decodeThumb6, Cond.ofBits, put_lo, put_hi, put_bit_lo, put_bit_hi, -BitVec.getLsbD_eq_getElem]

theorem tB (off : BitVec 11) : Statement (.tB off) := by
  intro _
  simp [encode, decode, decodeThumb, decodeThumb7, put_lo, put_hi, put_bit_lo, put_bit_hi, -BitVec.getLsbD_eq_getElem]

theorem tBlxSuffix (off : BitVec 10) : Statement (.tBlxSuffix off) := by
  intro _
  simp [encode, decode, decodeThumb, decodeThumb7, put_lo, put_hi, put_bit_lo, put_bit_hi, -BitVec.getLsbD_eq_getElem]

theorem tBlPrefix (off : BitVec 11) : Statement (.tBlPrefix off) := by
  intro _
  simp [encode, decode, decodeThumb, decodeThumb7, put_lo, put_hi, put_bit_lo, put_bit_hi, -BitVec.getLsbD_eq_getElem]

theorem tBlSuffix (off : BitVec 11) : Statement (.tBlSuffix off) := by
  intro _
  simp [encode, decode, decodeThumb, decodeThumb7, put_lo, put_hi, put_bit_lo, put_bit_hi, -BitVec.getLsbD_eq_getElem]

end Sys2Proof.Laws.RoundTrip
end

