-- ==== Sys2Proof/Laws/Turn.lean ====
section
/-! SUPPORT. What a turn of the core comes to: the fetch and the execution of one instruction, when nothing stands before it. -/

namespace Sys2Proof.Machine

/-- Nothing happens to a result that is passed through unchanged. -/
@[simp] theorem mapNext_id (r : Result) : mapNext id r = r := by cases r <;> rfl

/-- A core that no interrupt got going has nothing to settle. -/
theorem settle_of_none {s : State} (h : s.etmRun = none) : s.settle = s := by
  have h' : { s with etmRun := none } = s := by rw [← h]
  rw [State.settle, h, h']
  exact ite_self s

/-- The turn of a core that runs, with no request and FIFOFULL LOW, is that of its instruction boundary. -/
theorem coreTurnWith_eq {run : Instr → State → Result} {s : State} (hu : s.unrecoverable = false)
    (hh : s.dbg.halted = false) (hr : s.debugRequest = false) (hf : s.pins.fifofull = false) (he : s.etmRun = none)
    (hs : s.standby = false) : coreTurnWith run s = boundary run s := by
  have h' : { s with standby := false } = s := by rw [← hs]
  unfold coreTurnWith
  rw [settle_of_none he]
  dsimp only
  rw [h']
  simp only [hu, hh, hr, hf, hs, Bool.false_eq_true, if_false, Bool.or_self, Bool.false_and]

/-- No interrupt is entered where neither is taken. -/
theorem pendingInterrupt_none {s : State} (hf : s.takesFiq = false) (hi : s.takesIrq = false) : s.pendingInterrupt = none := by
  simp only [State.pendingInterrupt, hf, hi, Bool.false_eq_true, if_false]

/-- A boundary with no interrupt to take runs the next instruction; a latched watchpoint halts the core after it. -/
theorem boundary_eq {run : Instr → State → Result} {s : State} (hp : s.pastTop = false)
    (hm : (s.dbg.wptLatch && s.dbg.monitor) = false) (hf : s.takesFiq = false) (hi : s.takesIrq = false) :
    boundary run s = if s.dbg.wptLatch then mapNext State.endWatched (runInstruction run s.unlatched) else runInstruction run s := by
  have h : s.unlatched.pendingInterrupt = none := pendingInterrupt_none hf hi
  simp only [boundary, interruptOrRun, hp, hm, h, pendingInterrupt_none hf hi, Bool.false_eq_true, if_false]

/-- After an instruction that ends with no interrupt to enter, a latched watchpoint only halts the core. -/
theorem endWatched_eq {s : State} (hh : s.dbg.halted = false) (hf : s.takesFiq = false) (hi : s.takesIrq = false) :
    s.endWatched = s.haltAt (s.pc + BitVec.ofNat 32 (5 * s.instrLen)) := by
  simp only [State.endWatched, State.enterPending, pendingInterrupt_none hf hi, hh, Bool.false_eq_true, if_false, enterWatched_eq]

/-- After an instruction that ends with an interrupt to enter, a latched watchpoint halts the core after that entry. -/
theorem endWatched_pending {s : State} {e : Exc} (hh : s.dbg.halted = false) (hp : s.pastTop = false)
    (hu : s.unrecoverable = false) (he : s.pendingInterrupt = some e) : s.endWatched = (takeInterrupt e s).enterWatched := by
  simp only [State.endWatched, State.enterPending, he, hp, hu, hh, Bool.false_eq_true, if_false, Bool.or_self]

/-- An instruction that was fetched without a mark runs as its code says. -/
theorem runInstruction_eq {run : Instr → State → Result} {s s1 : State} {f : Fetched} (hr : s.staleRoute = false)
    (hf : s.coreFetch = .ok f s1) (he : f.err = false) (hb : s1.breakHit f = false) :
    runInstruction run s = runCode run f.bits s1 := by
  simp only [runInstruction, State.nextFetch, hr, hf, he, hb, Acc.finish, Bool.false_eq_true, if_false]

/-! ### The fetch -/

/-- What a fetch can change: the buffers it drains with what they drain into, the prefetch buffer, and whether the next fetch is
sequential. -/
def FetchFrame (s t : State) : Prop :=
  t = { s with itcm := t.itcm, dtcm := t.dtcm, ahb := t.ahb, itcmWB := t.itcmWB, dtcmWB := t.dtcmWB, ahbWB := t.ahbWB,
               free := t.free, ipb := t.ipb, ipbNext := t.ipbNext, nonseq := t.nonseq } ∧ KeepsWf s t

/-- An access that goes on has gone on in both its parts. -/
theorem Acc.bind_ok {α β : Type} {a : Acc α} {k : α → State → Acc β} {w : β} {u : State} (h : a.bind k = .ok w u) :
    ∃ v t, a = .ok v t ∧ k v t = .ok w u := by
  cases a with
  | ok v t => exact ⟨v, t, rfl, h⟩
  | _ => cases h

/-- Taking a word of the pipeline changes nothing. -/
theorem takeWord_state {s t : State} {p : PipeWord} {f : Fetched} (h : s.takeWord p = .ok f t) : t = s := by
  unfold State.takeWord at h
  split at h
  · injection h with _ h; exact h.symm
  · cases h

/-- A change of the prefetch buffer and the fetch sequence is what a fetch can change. -/
theorem FetchFrame.then {s t : State} (h : FetchFrame s t) (n : Bool) (l : List IpbEntry) (o : Option Word) :
    FetchFrame s { t with nonseq := n, ipb := l, ipbNext := o } := by
  obtain ⟨h1, h2⟩ := h
  refine ⟨?_, h2⟩
  rw [h1]

theorem FetchFrame.refl (s : State) : FetchFrame s s := ⟨rfl, KeepsWf.refl s⟩

theorem fetchFrame_drainAhbAll (s : State) : FetchFrame s s.drainAhbAll := by
  refine ⟨?_, keepsWf_drainAhbAll s⟩
  have h : s.drainAhbAll = _ := ahbFrame_drainAhbAll s
  rw [h]

theorem fetchFrame_orderDrain (s : State) (t : Tcm) : FetchFrame s (s.orderDrain t) := by
  refine ⟨?_, keepsWf_orderDrain s t⟩
  have h : s.orderDrain t = _ := tcmFrame_orderDrain s t
  rw [h]

/-- A fetch from the AHB changes only what `FetchFrame` says. -/
theorem fetchDirect_framed {s t : State} {a : Word} {f : Fetched} (h : s.fetchDirect a = .ok f t) : FetchFrame s t := by
  injection h with _ h
  subst h
  exact (fetchFrame_drainAhbAll s).then _ _ _

/-- A fetch at the pc changes only what `FetchFrame` says. -/
theorem fetchNow_framed {s t : State} {f : Fetched} (h : s.fetchNow = .ok f t) : FetchFrame s t := by
  unfold State.fetchNow at h
  split at h
  · unfold State.fetchItcm at h
    split at h
    · cases h
    · cases takeWord_state h
      exact (fetchFrame_orderDrain s .itcm).then _ _ _
  · unfold State.fetchAhb at h
    split at h
    · split at h
      · injection h with _ h
        subst h
        exact (FetchFrame.refl s).then _ _ _
      · exact fetchDirect_framed h
    · exact fetchDirect_framed h

theorem fetchFrame_passWord (s : State) (p : PipeWord) : FetchFrame s (s.passWord p) := by
  unfold State.passWord
  split
  · exact (FetchFrame.refl s).then _ _ _
  · split <;> exact (FetchFrame.refl s).then _ _ _

/-- The fetch of the next instruction, from the pipeline's word or not, changes only what `FetchFrame` says. -/
theorem coreFetch_framed {s t : State} {f : Fetched} (h : s.coreFetch = .ok f t) : FetchFrame s t := by
  unfold State.coreFetch at h
  split at h
  · unfold State.fetchHeld at h
    split at h
    · obtain ⟨now, s1, h1, h2⟩ := Acc.bind_ok h
      obtain ⟨held, s2, -, h3⟩ := Acc.bind_ok h2
      injection h3 with _ h3
      subst h3
      exact fetchNow_framed h1
    · cases takeWord_state h
      exact fetchFrame_passWord s _
  · exact fetchNow_framed h

/-- A fetch by a replaced supply changes only what `FetchFrame` says: the routing, the byte order and the prefetch buffer disable are
as they are now. -/
theorem fetchBy_framed {s t : State} {r : Route} {f : Fetched} (h : s.fetchBy r = .ok f t) : FetchFrame s t := by
  unfold State.fetchBy at h
  obtain ⟨g, u, h1, h2⟩ := Acc.bind_ok h
  injection h2 with _ h2
  subst h2
  split at h1 <;>
  · obtain ⟨k1, k2⟩ := coreFetch_framed h1
    refine ⟨?_, k2⟩
    rw [k1]

/-- The fetch of step 8 of R566 changes only what `FetchFrame` says. -/
theorem nextFetch_framed {s t : State} {f : Fetched} (h : s.nextFetch = .ok f t) : FetchFrame s t := by
  unfold State.nextFetch at h
  split at h
  · split at h
    · exact fetchBy_framed h
    · cases h
  · exact coreFetch_framed h

/-- The words of the pipeline after a control transfer: those that no barrier has passed, marked. -/
theorem mem_afterTransfer {p : PipeWord} {l : List PipeWord} :
    p ∈ afterTransfer l ↔ ∃ q ∈ l, q.drained = false ∧ p = { q with old := true } := by
  unfold afterTransfer
  rw [List.mem_map]
  constructor
  · rintro ⟨q, hq, rfl⟩
    have h := List.mem_filter.mp hq
    exact ⟨q, h.1, by simpa [PipeWord.outlivesBranch] using h.2, rfl⟩
  · rintro ⟨q, hq, hd, rfl⟩
    exact ⟨q, List.mem_filter.mpr ⟨hq, by simpa [PipeWord.outlivesBranch] using hd⟩, rfl⟩

/-! ### Reset -/

theorem tcmFrame_resetTcm (m : Tcm) (l : List TcmEntry) :
    ∀ s : State, TcmFrame s (resetTcm m s l) ∧ KeepsWf s (resetTcm m s l) := by
  induction l with
  | nil => intro s; exact ⟨rfl, KeepsWf.refl s⟩
  | cons e r ih =>
    intro s
    have draw : TcmFrame s { s with free := s.free + 1 } ∧ KeepsWf s { s with free := s.free + 1 } := ⟨rfl, KeepsWf.refl s⟩
    simp only [resetTcm]
    split
    · exact ⟨(draw.1.trans (tcmFrame_putRam _ _ _ _ _)).trans (ih _).1, (draw.2.trans (keepsWf_putRam _ _ _ _ _)).trans (ih _).2⟩
    · exact ⟨draw.1.trans (ih _).1, draw.2.trans (ih _).2⟩

theorem ahbFrame_resetAhb (l : List AhbEntry) : ∀ s : State, AhbFrame s (resetAhb s l) ∧ KeepsWf s (resetAhb s l) := by
  induction l with
  | nil => intro s; exact ⟨rfl, KeepsWf.refl s⟩
  | cons e r ih =>
    intro s
    have draw : AhbFrame s { s with free := s.free + 1 } ∧ KeepsWf s { s with free := s.free + 1 } := ⟨rfl, KeepsWf.refl s⟩
    simp only [resetAhb]
    split
    · exact ⟨(draw.1.trans (ahbFrame_putAhb _ _ _ _ _ _)).trans (ih _).1,
        (draw.2.trans (keepsWf_putAhb _ _ _ _ _ _)).trans (ih _).2⟩
    · exact ⟨draw.1.trans (ih _).1, draw.2.trans (ih _).2⟩

/-- What Reset makes of the pending stores changes only the memories, the write buffers and the counter of free values (R620, U12). -/
theorem resetBuffers_framed (s : State) :
    s.resetBuffers = { s with itcm := s.resetBuffers.itcm, dtcm := s.resetBuffers.dtcm, ahb := s.resetBuffers.ahb,
                              itcmWB := s.resetBuffers.itcmWB, dtcmWB := s.resetBuffers.dtcmWB, ahbWB := s.resetBuffers.ahbWB,
                              free := s.resetBuffers.free } ∧ KeepsWf s s.resetBuffers := by
  obtain ⟨h1, k1⟩ := ahbFrame_resetAhb s.ahbWB { s with ahbWB := [], itcmWB := [], dtcmWB := [] }
  unfold State.resetBuffers
  dsimp only
  generalize resetAhb _ s.ahbWB = a at h1 k1 ⊢
  obtain ⟨h2, k2⟩ := tcmFrame_resetTcm .itcm s.itcmWB a
  generalize resetTcm .itcm a s.itcmWB = b at h2 k2 ⊢
  obtain ⟨h3, k3⟩ := tcmFrame_resetTcm .dtcm s.dtcmWB b
  generalize resetTcm .dtcm b s.dtcmWB = c at h3 k3 ⊢
  refine ⟨?_, fun h => k3 (k2 (k1 h))⟩
  unfold TcmFrame AhbFrame at *
  rw [h3, h2, h1]

/-! ### The step -/

/-- The pins of an ETM are driven as R671 asks. -/
theorem etmPinStop_eq_none {s : State} : s.etmPinStop = none ↔
    (s.params.etm = false → s.pins.fifofull = false ∧ s.pins.etmen = false) := by
  unfold State.etmPinStop
  cases s.params.etm <;> cases s.pins.fifofull <;> cases s.pins.etmen <;> simp

/-- A run that the spec gives meaning to: legal parameters, in monitor debug-mode no external pin HIGH and no debug request, and
FIFOFULL and ETMEN LOW with no ETM. -/
theorem forbidden_eq_none {s : State} : s.forbidden = none ↔
    s.params.legal = true ∧ s.externalHigh = false ∧ (s.dbg.monitor && s.debugRequest) = false ∧
      (s.params.etm = false → s.pins.fifofull = false ∧ s.pins.etmen = false) := by
  unfold State.forbidden State.inputStop State.monitorStop
  cases s.params.legal <;> cases s.externalHigh <;> cases (s.dbg.monitor && s.debugRequest) <;>
    simp [etmPinStop_eq_none]

/-- With an empty agenda, in a run that the spec gives meaning to, the step is a turn of the core. -/
theorem step_coreTurn {s : State} (hf : s.forbidden = none) (ha : s.agenda = []) : step s = coreTurn s := by
  simp only [step, hf, ha, guarded]

end Sys2Proof.Machine
end

