-- ==== Sys2Proof/Machine/Pins.lean ====
section
/-! DEFINITION. The output pins that follow the state (R76, R109, R244, R269, R602, R240). -/

namespace Sys2Proof.Machine

/-- BIGENDOUT follows the B bit (R109, R621). -/
def State.bigEndOut (s : State) : Bool := s.ctl.b

/-- STANDBYWFI is HIGH in Standby (R244). -/
def State.standbyWfi (s : State) : Bool := s.standby

/-- COMMRX: the receive buffer has data to read (R269). -/
def State.commRx (s : State) : Bool := s.dcc.r

/-- COMMTX: the transmit buffer is empty (R269). -/
def State.commTx (s : State) : Bool := !s.dcc.w

/-- DBGACK: debug state; forced LOW by DBGEN LOW (R602, R610). -/
def State.dbgAck (s : State) : Bool := s.dbg.halted && s.params.dbgen

/-- ETMPROCID: absent in the reduced debug configuration (R601); with ETMEN HIGH it follows the Trace Process ID Register, with
ETMEN LOW it stays at its last value (R611). ETMPROCIDWR pulses at each step of `procIdWrites` (R240, log 40). -/
def State.etmProcId (s : State) : Option Word :=
  if !s.params.fullDebug then none else some (if s.pins.etmen then s.procId else s.etmHeld)

end Sys2Proof.Machine
end

