-- ==== Sys2Proof/Tests/Slice0.lean ====
section
/-! SUPPORT. The author's tests: ill-formed terms that WellFormed refuses, every row's decoding from a word, single steps with
the values of spec/95_test_vectors.md, and for each obligation with hypotheses a state and operands that meet them. -/

set_option linter.unusedSimpArgs false

namespace Sys2Proof.Tests

open Sys2Proof Sys2Proof.Machine

/-- A machine in the reset state but for its CPSR, its pc, some registers of the mode, and some words of AHB memory. -/
def machine (cpsr pc : Word) (regs : List (Reg × Word)) (mem : List (Nat × Word)) : State :=
  let s := { State.reset with cpsr := Psr.ofWord cpsr, pc := pc,
                              ahb := mem.foldl (fun m x => m.setBytes x.1 (wordBytes x.2 4)) [] }
  regs.foldl (fun s x => s.setPhys (s.phys x.1) x.2) s

/-- The same with the LT, B and A bits of the Control Register. -/
def withControl (lt b a : Bool) (s : State) : State := { s with ctl := { s.ctl with lt := lt, b := b, a := a } }

/-- One step of an instruction word placed at the pc: the pc, the CPSR, some registers of the mode, some words of memory. -/
def runs (nbits w : Nat) (s : State) (q : List Reg) (a : List Word) : Option (Word × Word × List Word × List Word) :=
  match step (s.withFetchWord nbits w) with
  | .next t => some (t.pc, t.cpsr.toWord, q.map fun r => t.getPhys (t.phys r), a.map fun x => t.valueAt 4 x)
  | _ => none

/-! ### The checks of WellFormed each refuse an ill-formed term -/

theorem test_encodable_refuses_words_of_other_rows :
    ([.ldrImm .al false true true 1 0 4, .ldrReg .al false true true 1 0 0 .lsl 2, .strImm .al false true true 1 0 4,
      .strReg .al false true true 1 0 0 .lsl 2, .ldrbImm .al false true true 1 0 4,
      .ldrbReg .al false true true 1 0 0 .lsl 2, .strbImm .al false true true 1 0 4,
      .strbReg .al false true true 1 0 0 .lsl 2, .ldc .al false false true false 1 0 2 4,
      .stc .al false false true false 1 0 2 4, .ldc2 false false true false 1 0 2 4, .stc2 false false true false 1 0 2 4,
      .mcr .al 0 7 0 15 4 10, .mcr .al 0 1 0 14 0 0, .mrc .al 0 1 0 15 0 0, .mrc .al 0 1 0 14 0 0,
      .tBCond .al 0] : List Instr).map Instr.wf = List.replicate 17 false := by decide

theorem test_check_refuses_data_processing_operands :
    (Instr.andShReg .al false 15 0 2 .lsl 1).check = some .pcOperand ∧
    (Instr.subShReg .al false 3 15 2 .lsl 1).check = some .pcOperand ∧
    (Instr.addShReg .al false 3 0 15 .lsl 1).check = some .pcOperand ∧
    (Instr.bicShReg .al false 3 0 2 .lsl 15).check = some .pcOperand ∧
    (Instr.tstShReg .al 3 1 2 .lsl 1).check = some .sbzSbo ∧ (Instr.cmpShReg .al 15 0 2 .lsl 1).check = some .pcOperand ∧
    (Instr.movShReg .al false 0 15 2 .lsl 1).check = some .pcOperand ∧
    (Instr.mvnShReg .al false 4 0 2 .lsl 1).check = some .sbzSbo ∧
    (Instr.teqImm .al 3 1 0 1).check = some .sbzSbo ∧ (Instr.cmnShImm .al 3 8 0 .lsl 1).check = some .sbzSbo ∧
    (Instr.movImm .al false 1 0 0 1).check = some .sbzSbo ∧ (Instr.mvnShImm .al false 2 0 0 .lsl 1).check = some .sbzSbo ∧
    (Instr.clz .al 14 0 15 1).check = some .sbzSbo ∧ (Instr.clz .al 15 0 15 15).check = some .pcOperand := by decide

theorem test_check_refuses_multiply_operands :
    (Instr.mul .al false 0 1 2 3).check = some .sbzSbo ∧ (Instr.mul .al false 0 0 15 3).check = some .pcOperand ∧
    (Instr.mul .al false 3 0 2 3).check = some .destIsRm ∧ (Instr.mla .al false 0 15 2 3).check = some .pcOperand ∧
    (Instr.mla .al false 3 1 2 3).check = some .destIsRm ∧ (Instr.umull .al false 15 1 2 3).check = some .pcOperand ∧
    (Instr.umlal .al false 1 1 2 3).check = some .hiIsLo ∧ (Instr.smull .al false 3 1 2 3).check = some .destIsRm ∧
    (Instr.smlal .al false 0 3 2 3).check = some .destIsRm ∧ (Instr.smlaXY .al 0 15 2 false false 3).check = some .pcOperand ∧
    (Instr.smlawY .al 0 1 15 false 3).check = some .pcOperand ∧ (Instr.smulwY .al 0 1 2 false 3).check = some .sbzSbo ∧
    (Instr.smulXY .al 15 0 2 false false 3).check = some .pcOperand ∧
    (Instr.smlalXY .al 1 1 2 false false 3).check = some .hiIsLo ∧
    (Instr.smlalXY .al 1 0 2 false false 15).check = some .pcOperand ∧ (Instr.qadd .al 1 0 1 2).check = some .sbzSbo ∧
    (Instr.qdsub .al 15 0 0 2).check = some .pcOperand := by decide

theorem test_check_refuses_branch_and_status_operands :
    (Instr.bx .al 0xFFE 1).check = some .sbzSbo ∧ (Instr.blxReg .al 0x7FF 1).check = some .sbzSbo ∧
    (Instr.blxReg .al 0xFFF 15).check = some .pcOperand ∧ (Instr.mrs .al false 14 0 0 0).check = some .sbzSbo ∧
    (Instr.mrs .al false 15 0 1 0).check = some .sbzSbo ∧ (Instr.mrs .al true 15 15 0 0).check = some .pcOperand ∧
    (Instr.msrReg .al false 9 0 0 1).check = some .sbzSbo ∧ (Instr.msrReg .al false 9 15 0 15).check = some .pcOperand ∧
    (Instr.msrImm .al false 9 0 0 1).check = some .sbzSbo := by decide

theorem test_check_refuses_mode_2_operands :
    (Instr.ldrImm .al false true false 15 0 4).check = some .pcBase ∧
    (Instr.ldrImm .al true true true 1 1 4).check = some .baseIsDest ∧
    (Instr.ldrbImm .al true true false 1 15 4).check = some .pcOperand ∧
    (Instr.strReg .al true true false 1 0 0 .lsl 15).check = some .pcOperand ∧
    (Instr.ldrReg .al true true true 15 0 0 .lsl 2).check = some .pcBase ∧
    (Instr.strbReg .al false true false 1 1 0 .lsl 2).check = some .baseIsDest ∧
    (Instr.ldrbReg .al false true false 1 0 0 .lsl 1).check = some .baseIsOffset ∧
    (Instr.ldrtImm .al true 1 15 4).check = some .pcOperand ∧ (Instr.strtReg .al true 15 0 0 .lsl 2).check = some .pcBase ∧
    (Instr.pldReg true 1 0 .lsl 15).check = some .pcOperand := by decide

theorem test_check_refuses_mode_3_operands :
    (Instr.ldrhImm .al false true true 1 0 0 2).check = some .postIndexedW ∧
    (Instr.strhImm .al true true false 1 15 0 2).check = some .pcOperand ∧
    (Instr.ldrsbImm .al true true true 15 0 0 2).check = some .pcBase ∧
    (Instr.ldrshImm .al false true false 1 1 0 2).check = some .baseIsDest ∧
    (Instr.ldrhReg .al true true false 1 0 4 2).check = some .sbzSbo ∧
    (Instr.strhReg .al false true true 1 0 0 2).check = some .postIndexedW ∧
    (Instr.ldrsbReg .al true true false 1 0 0 15).check = some .pcOperand ∧
    (Instr.ldrshReg .al true true true 15 0 0 2).check = some .pcBase ∧
    (Instr.ldrdImm .al true true false 4 3 0 0).check = some .oddPair ∧
    (Instr.ldrdImm .al true true false 4 14 0 0).check = some .oddPair ∧
    (Instr.ldrdImm .al false true false 3 2 0 0).check = some .baseIsDest ∧
    (Instr.ldrdReg .al true true false 4 2 0 3).check = some .pairIsOffset ∧
    (Instr.ldrdReg .al true true false 4 2 1 5).check = some .sbzSbo ∧
    (Instr.strdImm .al false true true 4 2 0 0).check = some .postIndexedW ∧
    (Instr.strdReg .al true true false 4 2 0 15).check = some .pcOperand ∧
    (Instr.strdReg .al true true true 2 2 0 5).check = some .baseIsDest := by decide

theorem test_check_refuses_multiple_operands :
    (Instr.ldm1 .al false true false 0 0).check = some .emptyList ∧
    (Instr.ldm1 .al false true false 15 1).check = some .pcBase ∧
    (Instr.ldm1 .al false true true 0 3).check = some .baseInList ∧
    (Instr.ldm3 .al false true true 0 1).check = some .baseInList ∧
    (Instr.stm1 .al false true false 0 0).check = some .emptyList ∧
    (Instr.stm1 .al false true false 15 1).check = some .pcBase ∧ (Instr.ldm2 .al false true 1 0 2).check = some .userListW ∧
    (Instr.stm2 .al false true 0 0 0).check = some .emptyList ∧ (Instr.swp .al 2 0 1 1).check = some .sbzSbo ∧
    (Instr.swp .al 2 15 0 1).check = some .pcOperand ∧ (Instr.swpb .al 2 0 0 2).check = some .swapBase ∧
    (Instr.mcr15 .al 0 1 15 0 0).check = some .pcOperand ∧ (Instr.mrc14 .al 0 0 15 0 0).check = some .pcOperand := by decide

theorem test_check_refuses_thumb_operands :
    (Instr.tMul 1 1).check = some .destIsRm ∧ (Instr.tAddHi false false 1 0).check = some .bothLow ∧
    (Instr.tMovHi false false 1 0).check = some .bothLow ∧ (Instr.tCmpHi false false 1 0).check = some .bothLow ∧
    (Instr.tCmpHi true false 1 7).check = some .pcOperand ∧ (Instr.tBx false 1 1).check = some .sbzSbo ∧
    (Instr.tBlxReg false 1 4).check = some .sbzSbo ∧ (Instr.tBlxReg true 7 0).check = some .pcOperand ∧
    (Instr.tPush false 0).check = some .emptyList ∧ (Instr.tPop false 0).check = some .emptyList ∧
    (Instr.tStmia 0 0).check = some .emptyList ∧ (Instr.tStmia 2 6).check = some .baseInList ∧ (Instr.tLdmia 0 0).check = some .emptyList := by decide

theorem test_unallocated_codes_are_refused :
    decode (.arm 0xF1000000) = .error (.unallocatedArm 0xF1000000) ∧ decode (.arm 0xE1900F9F) = .error (.unallocatedArm 0xE1900F9F) ∧
    decode (.thumb 0xB100) = .error (.unallocatedThumb 0xB100) := by decide

theorem test_decode_data_processing_immediate_1 :
    decode (.arm 0xE20100FF) = .ok (.andImm .al false 1 0 0 0xFF) ∧  -- AND r0, r1, #0xFF
    decode (.arm 0xE2334CFF) = .ok (.eorImm .al true 3 4 12 0xFF) ∧  -- EORS r4, r3, #0xFF00
    decode (.arm 0xE2500001) = .ok (.subImm .al true 0 0 0 1) ∧  -- SUBS r0, r0, #1
    decode (.arm 0xE2600000) = .ok (.rsbImm .al false 0 0 0 0) ∧  -- RSB r0, r0, #0
    decode (.arm 0xE28F0004) = .ok (.addImm .al false 15 0 0 4) ∧  -- ADD r0, pc, #4
    decode (.arm 0xE2B34001) = .ok (.adcImm .al true 3 4 0 1) ∧  -- ADCS r4, r3, #1
    decode (.arm 0xE2C34001) = .ok (.sbcImm .al false 3 4 0 1) ∧  -- SBC r4, r3, #1
    decode (.arm 0xE2E11000) = .ok (.rscImm .al false 1 1 0 0) ∧  -- RSC r1, r1, #0
    decode (.arm 0xE3100002) = .ok (.tstImm .al 0 0 0 2) ∧  -- TST r0, #2
    decode (.arm 0xE33304FF) = .ok (.teqImm .al 3 0 4 0xFF) ∧  -- TEQ r3, #0xFF000000
    decode (.arm 0xE3500000) = .ok (.cmpImm .al 0 0 0 0) ∧  -- CMP r0, #0
    decode (.arm 0xE3700001) = .ok (.cmnImm .al 0 0 0 1) := by  -- CMN r0, #1
  decide

theorem test_decode_data_processing_immediate_2 :
    decode (.arm 0xE3800008) = .ok (.orrImm .al false 0 0 0 8) ∧  -- ORR r0, r0, #8
    decode (.arm 0xE3A01A01) = .ok (.movImm .al false 0 1 10 1) ∧  -- MOV r1, #0x1000
    decode (.arm 0xE3C00004) = .ok (.bicImm .al false 0 0 0 4) ∧  -- BIC r0, r0, #4
    decode (.arm 0xE3E00000) = .ok (.mvnImm .al false 0 0 0 0) := by  -- MVN r0, #0
  decide

theorem test_decode_data_processing_shift_by_immediate_1 :
    decode (.arm 0xE0134265) = .ok (.andShImm .al true 3 4 4 .ror 5) ∧  -- ANDS r4, r3, r5, ROR #4
    decode (.arm 0xE0222003) = .ok (.eorShImm .al false 2 2 0 .lsl 3) ∧  -- EOR r2, r2, r3
    decode (.arm 0xE0434105) = .ok (.subShImm .al false 3 4 2 .lsl 5) ∧  -- SUB r4, r3, r5, LSL #2
    decode (.arm 0xE0634125) = .ok (.rsbShImm .al false 3 4 2 .lsr 5) ∧  -- RSB r4, r3, r5, LSR #2
    decode (.arm 0xE0810102) = .ok (.addShImm .al false 1 0 2 .lsl 2) ∧  -- ADD r0, r1, r2, LSL #2
    decode (.arm 0xE0A11003) = .ok (.adcShImm .al false 1 1 0 .lsl 3) ∧  -- ADC r1, r1, r3
    decode (.arm 0xE0C11003) = .ok (.sbcShImm .al false 1 1 0 .lsl 3) ∧  -- SBC r1, r1, r3
    decode (.arm 0xE0E34145) = .ok (.rscShImm .al false 3 4 2 .asr 5) ∧  -- RSC r4, r3, r5, ASR #2
    decode (.arm 0xE1130165) = .ok (.tstShImm .al 3 0 2 .ror 5) ∧  -- TST r3, r5, ROR #2
    decode (.arm 0xE1300001) = .ok (.teqShImm .al 0 0 0 .lsl 1) ∧  -- TEQ r0, r1
    decode (.arm 0xE1530105) = .ok (.cmpShImm .al 3 0 2 .lsl 5) ∧  -- CMP r3, r5, LSL #2
    decode (.arm 0xE1730125) = .ok (.cmnShImm .al 3 0 2 .lsr 5) := by  -- CMN r3, r5, LSR #2
  decide

theorem test_decode_data_processing_shift_by_immediate_2 :
    decode (.arm 0xE1934145) = .ok (.orrShImm .al true 3 4 2 .asr 5) ∧  -- ORRS r4, r3, r5, ASR #2
    decode (.arm 0xE1B0F00E) = .ok (.movShImm .al true 0 15 0 .lsl 14) ∧  -- MOVS PC, R14
    decode (.arm 0xE1C34105) = .ok (.bicShImm .al false 3 4 2 .lsl 5) ∧  -- BIC r4, r3, r5, LSL #2
    decode (.arm 0xE1E04105) = .ok (.mvnShImm .al false 0 4 2 .lsl 5) := by  -- MVN r4, r5, LSL #2
  decide

theorem test_decode_data_processing_shift_by_register_1 :
    decode (.arm 0xE0034215) = .ok (.andShReg .al false 3 4 2 .lsl 5) ∧  -- AND r4, r3, r5, LSL r2
    decode (.arm 0x00234235) = .ok (.eorShReg .eq false 3 4 2 .lsr 5) ∧  -- EOREQ r4, r3, r5, LSR r2
    decode (.arm 0xE0534255) = .ok (.subShReg .al true 3 4 2 .asr 5) ∧  -- SUBS r4, r3, r5, ASR r2
    decode (.arm 0x10734275) = .ok (.rsbShReg .ne true 3 4 2 .ror 5) ∧  -- RSBNES r4, r3, r5, ROR r2
    decode (.arm 0xE0834215) = .ok (.addShReg .al false 3 4 2 .lsl 5) ∧  -- ADD r4, r3, r5, LSL r2
    decode (.arm 0xE0A34235) = .ok (.adcShReg .al false 3 4 2 .lsr 5) ∧  -- ADC r4, r3, r5, LSR r2
    decode (.arm 0xE0D34255) = .ok (.sbcShReg .al true 3 4 2 .asr 5) ∧  -- SBCS r4, r3, r5, ASR r2
    decode (.arm 0xE0F34275) = .ok (.rscShReg .al true 3 4 2 .ror 5) ∧  -- RSCS r4, r3, r5, ROR r2
    decode (.arm 0xE1130215) = .ok (.tstShReg .al 3 0 2 .lsl 5) ∧  -- TST r3, r5, LSL r2
    decode (.arm 0xE1330235) = .ok (.teqShReg .al 3 0 2 .lsr 5) ∧  -- TEQ r3, r5, LSR r2
    decode (.arm 0xE1530255) = .ok (.cmpShReg .al 3 0 2 .asr 5) ∧  -- CMP r3, r5, ASR r2
    decode (.arm 0xE1730275) = .ok (.cmnShReg .al 3 0 2 .ror 5) := by  -- CMN r3, r5, ROR r2
  decide

theorem test_decode_data_processing_shift_by_register_2 :
    decode (.arm 0xE1834215) = .ok (.orrShReg .al false 3 4 2 .lsl 5) ∧  -- ORR r4, r3, r5, LSL r2
    decode (.arm 0xE1A00211) = .ok (.movShReg .al false 0 0 2 .lsl 1) ∧  -- MOV r0, r1, LSL r2
    decode (.arm 0xE1D34235) = .ok (.bicShReg .al true 3 4 2 .lsr 5) ∧  -- BICS r4, r3, r5, LSR r2
    decode (.arm 0xE1F04255) = .ok (.mvnShReg .al true 0 4 2 .asr 5) := by  -- MVNS r4, r5, ASR r2
  decide

theorem test_decode_multiply_and_dsp_1 :
    decode (.arm 0xE16F0F11) = .ok (.clz .al 15 0 15 1) ∧  -- CLZ r0, r1
    decode (.arm 0xE0000291) = .ok (.mul .al false 0 0 2 1) ∧  -- MUL r0, r1, r2
    decode (.arm 0xE0203291) = .ok (.mla .al false 0 3 2 1) ∧  -- MLA r0, r1, r2, r3
    decode (.arm 0xE0810392) = .ok (.umull .al false 1 0 3 2) ∧  -- UMULL r0, r1, r2, r3
    decode (.arm 0xE0A10392) = .ok (.umlal .al false 1 0 3 2) ∧  -- UMLAL r0, r1, r2, r3
    decode (.arm 0xE0C10392) = .ok (.smull .al false 1 0 3 2) ∧  -- SMULL r0, r1, r2, r3
    decode (.arm 0xE0E10392) = .ok (.smlal .al false 1 0 3 2) ∧  -- SMLAL r0, r1, r2, r3
    decode (.arm 0xE1003281) = .ok (.smlaXY .al 0 3 2 false false 1) ∧  -- SMLABB r0, r1, r2, r3
    decode (.arm 0xE1203281) = .ok (.smlawY .al 0 3 2 false 1) ∧  -- SMLAWB r0, r1, r2, r3
    decode (.arm 0xE12002A1) = .ok (.smulwY .al 0 0 2 false 1) ∧  -- SMULWB r0, r1, r2
    decode (.arm 0xE1410382) = .ok (.smlalXY .al 1 0 3 false false 2) ∧  -- SMLALBB r0, r1, r2, r3
    decode (.arm 0xE1600281) = .ok (.smulXY .al 0 0 2 false false 1) := by  -- SMULBB r0, r1, r2
  decide

theorem test_decode_multiply_and_dsp_2 :
    decode (.arm 0xE1020051) = .ok (.qadd .al 2 0 0 1) ∧  -- QADD r0, r1, r2
    decode (.arm 0xE1220051) = .ok (.qsub .al 2 0 0 1) ∧  -- QSUB r0, r1, r2
    decode (.arm 0xE1420051) = .ok (.qdadd .al 2 0 0 1) ∧  -- QDADD r0, r1, r2
    decode (.arm 0xE1620051) = .ok (.qdsub .al 2 0 0 1) := by  -- QDSUB r0, r1, r2
  decide

theorem test_decode_branches_status_and_traps :
    decode (.arm 0xEAFFFFFE) = .ok (.b .al 0xFFFFFE) ∧  -- B .
    decode (.arm 0xEB00003E) = .ok (.bl .al 0x3E) ∧  -- BL
    decode (.arm 0xFB00003E) = .ok (.blxImm true 0x3E) ∧  -- BLX
    decode (.arm 0xE12FFF1E) = .ok (.bx .al 0xFFF 14) ∧  -- BX LR
    decode (.arm 0xE12FFF33) = .ok (.blxReg .al 0xFFF 3) ∧  -- BLX r3
    decode (.arm 0xE10F0000) = .ok (.mrs .al false 15 0 0 0) ∧  -- MRS r0, CPSR
    decode (.arm 0xE129F000) = .ok (.msrReg .al false 9 15 0 0) ∧  -- MSR CPSR_fc, r0
    decode (.arm 0xE321F0D3) = .ok (.msrImm .al false 1 15 0 0xD3) ∧  -- MSR CPSR_c, #0xD3
    decode (.arm 0xEF123456) = .ok (.swi .al 0x123456) ∧  -- SWI 0x123456
    decode (.arm 0xE1200A7B) = .ok (.bkpt 10 11) ∧  -- BKPT 0x00AB
    decode (.arm 0xE7F000F0) = .ok (.undefMedia .al 0xF8007 0) ∧  -- undefined
    decode (.arm 0xE3000000) = .ok (.undefMisc .al 0 0) := by  -- undefined
  decide

theorem test_decode_loads_and_stores_mode_2_1 :
    decode (.arm 0xE5910000) = .ok (.ldrImm .al true true false 1 0 0) ∧  -- LDR r0, [r1]
    decode (.arm 0xE7910102) = .ok (.ldrReg .al true true false 1 0 2 .lsl 2) ∧  -- LDR r0, [r1, r2, LSL #2]
    decode (.arm 0xE5810000) = .ok (.strImm .al true true false 1 0 0) ∧  -- STR r0, [r1]
    decode (.arm 0xE6834105) = .ok (.strReg .al false true false 3 4 2 .lsl 5) ∧  -- STR r4, [r3], r5, LSL #2
    decode (.arm 0xE5D10000) = .ok (.ldrbImm .al true true false 1 0 0) ∧  -- LDRB r0, [r1]
    decode (.arm 0xE7734125) = .ok (.ldrbReg .al true false true 3 4 2 .lsr 5) ∧  -- LDRB r4, [r3, -r5, LSR #2]!
    decode (.arm 0xE5C10000) = .ok (.strbImm .al true true false 1 0 0) ∧  -- STRB r0, [r1]
    decode (.arm 0xE7C34145) = .ok (.strbReg .al true true false 3 4 2 .asr 5) ∧  -- STRB r4, [r3, r5, ASR #2]
    decode (.arm 0xE4B10000) = .ok (.ldrtImm .al true 1 0 0) ∧  -- LDRT r0, [r1], #0
    decode (.arm 0xE6B34105) = .ok (.ldrtReg .al true 3 4 2 .lsl 5) ∧  -- LDRT r4, [r3], r5, LSL #2
    decode (.arm 0xE4A10000) = .ok (.strtImm .al true 1 0 0) ∧  -- STRT r0, [r1], #0
    decode (.arm 0xE6234105) = .ok (.strtReg .al false 3 4 2 .lsl 5) := by  -- STRT r4, [r3], -r5, LSL #2
  decide

theorem test_decode_loads_and_stores_mode_2_2 :
    decode (.arm 0xE4F10000) = .ok (.ldrbtImm .al true 1 0 0) ∧  -- LDRBT r0, [r1], #0
    decode (.arm 0xE6F34165) = .ok (.ldrbtReg .al true 3 4 2 .ror 5) ∧  -- LDRBT r4, [r3], r5, ROR #2
    decode (.arm 0xE4E10000) = .ok (.strbtImm .al true 1 0 0) ∧  -- STRBT r0, [r1], #0
    decode (.arm 0xE6634105) = .ok (.strbtReg .al false 3 4 2 .lsl 5) := by  -- STRBT r4, [r3], -r5, LSL #2
  decide

theorem test_decode_loads_and_stores_mode_3_1 :
    decode (.arm 0xE1D100B0) = .ok (.ldrhImm .al true true false 1 0 0 0) ∧  -- LDRH r0, [r1]
    decode (.arm 0xE19100B2) = .ok (.ldrhReg .al true true false 1 0 0 2) ∧  -- LDRH r0, [r1, r2]
    decode (.arm 0xE1C100B0) = .ok (.strhImm .al true true false 1 0 0 0) ∧  -- STRH r0, [r1]
    decode (.arm 0xE10340B5) = .ok (.strhReg .al true false false 3 4 0 5) ∧  -- STRH r4, [r3, -r5]
    decode (.arm 0xE1D100D0) = .ok (.ldrsbImm .al true true false 1 0 0 0) ∧  -- LDRSB r0, [r1]
    decode (.arm 0xE19340D5) = .ok (.ldrsbReg .al true true false 3 4 0 5) ∧  -- LDRSB r4, [r3, r5]
    decode (.arm 0xE1D100F0) = .ok (.ldrshImm .al true true false 1 0 0 0) ∧  -- LDRSH r0, [r1]
    decode (.arm 0xE1B340F5) = .ok (.ldrshReg .al true true true 3 4 0 5) ∧  -- LDRSH r4, [r3, r5]!
    decode (.arm 0xE1C200D0) = .ok (.ldrdImm .al true true false 2 0 0 0) ∧  -- LDRD r0, [r2]
    decode (.arm 0xE08340D5) = .ok (.ldrdReg .al false true false 3 4 0 5) ∧  -- LDRD r4, [r3], r5
    decode (.arm 0xE1C200F0) = .ok (.strdImm .al true true false 2 0 0 0) ∧  -- STRD r0, [r2]
    decode (.arm 0xE18340F5) = .ok (.strdReg .al true true false 3 4 0 5) := by  -- STRD r4, [r3, r5]
  decide

theorem test_decode_loads_and_stores_mode_3_2 :
    decode (.arm 0xF5D1F000) = .ok (.pldImm true 1 0) ∧  -- PLD [r1]
    decode (.arm 0xF753F105) = .ok (.pldReg false 3 2 .lsl 5) := by  -- PLD [r3, -r5, LSL #2]
  decide

theorem test_decode_multiples_and_swaps :
    decode (.arm 0xE8B0000E) = .ok (.ldm1 .al false true true 0 14) ∧  -- LDMIA r0!, {r1-r3}
    decode (.arm 0xE8D06000) = .ok (.ldm2 .al false true 0 0 0x6000) ∧  -- LDMIA r0, {r13, r14}^
    decode (.arm 0xE8FD800F) = .ok (.ldm3 .al false true true 13 15) ∧  -- LDMFD sp!, {r0-r3, pc}^
    decode (.arm 0xE92D4010) = .ok (.stm1 .al true false true 13 0x4010) ∧  -- STMFD sp!, {r4, lr}
    decode (.arm 0xE8C06000) = .ok (.stm2 .al false true 0 0 0x6000) ∧  -- STMIA r0, {r13, r14}^
    decode (.arm 0xE1020091) = .ok (.swp .al 2 0 0 1) ∧  -- SWP r0, r1, [r2]
    decode (.arm 0xE1420091) = .ok (.swpb .al 2 0 0 1) := by  -- SWPB r0, r1, [r2]
  decide

theorem test_decode_coprocessor_1 :
    decode (.arm 0xEE000100) = .ok (.cdp .al 0 0 0 1 0 0) ∧  -- CDP p1, 0, c0, c0, c0, 0
    decode (.arm 0xED900100) = .ok (.ldc .al true true false false 0 0 1 0) ∧  -- LDC p1, c0, [r0]
    decode (.arm 0xED800100) = .ok (.stc .al true true false false 0 0 1 0) ∧  -- STC p1, c0, [r0]
    decode (.arm 0xEE000710) = .ok (.mcr .al 0 0 0 7 0 0) ∧  -- MCR p7, 0, r0, c0, c0, 0
    decode (.arm 0xEE100710) = .ok (.mrc .al 0 0 0 7 0 0) ∧  -- MRC p7, 0, r0, c0, c0, 0
    decode (.arm 0xEC410F00) = .ok (.mcrr .al 1 0 15 0 0) ∧  -- MCRR p15, 0, r0, r1, c0
    decode (.arm 0xEC510F00) = .ok (.mrrc .al 1 0 15 0 0) ∧  -- MRRC p15, 0, r0, r1, c0
    decode (.arm 0xFE000100) = .ok (.cdp2 0 0 0 1 0 0) ∧  -- CDP2 p1, 0, c0, c0, c0, 0
    decode (.arm 0xFD934205) = .ok (.ldc2 true true false false 3 4 2 5) ∧  -- LDC2 p2, c4, [r3, #20]
    decode (.arm 0xFD234205) = .ok (.stc2 true false false true 3 4 2 5) ∧  -- STC2 p2, c4, [r3, #-20]!
    decode (.arm 0xFE070F90) = .ok (.mcr2 0 7 0 15 4 0) ∧  -- MCR2 p15, 0, r0, c7, c0, 4
    decode (.arm 0xFE534276) = .ok (.mrc2 2 3 4 2 3 6) := by  -- MRC2 p2, 2, r4, c3, c6, 3
  decide

theorem test_decode_coprocessor_2 :
    decode (.arm 0xEE070F9A) = .ok (.mcr15 .al 0 7 0 4 10) ∧  -- MCR p15, 0, r0, c7, c10, 4
    decode (.arm 0xEE3F0F11) = .ok (.mrc15 .al 1 15 0 0 1) ∧  -- MRC p15, 1, r0, c15, c1, 0
    decode (.arm 0xEE011E10) = .ok (.mcr14 .al 0 1 1 0 0) ∧  -- MCR p14, 0, r1, c1, c0
    decode (.arm 0xEE100E10) = .ok (.mrc14 .al 0 0 0 0 0) := by  -- MRC p14, 0, r0, c0, c0
  decide

theorem test_decode_thumb_immediates :
    decode (.thumb 0x0108) = .ok (.tLslImm 4 1 0) ∧  -- LSL r0, r1, #4
    decode (.thumb 0x081A) = .ok (.tLsrImm 0 3 2) ∧  -- LSR r2, r3, #32
    decode (.thumb 0x1048) = .ok (.tAsrImm 1 1 0) ∧  -- ASR r0, r1, #1
    decode (.thumb 0x1888) = .ok (.tAddReg 2 1 0) ∧  -- ADD r0, r1, r2
    decode (.thumb 0x1A88) = .ok (.tSubReg 2 1 0) ∧  -- SUB r0, r1, r2
    decode (.thumb 0x1DC8) = .ok (.tAddImm3 7 1 0) ∧  -- ADD r0, r1, #7
    decode (.thumb 0x1E48) = .ok (.tSubImm3 1 1 0) ∧  -- SUB r0, r1, #1
    decode (.thumb 0x2055) = .ok (.tMovImm 0 0x55) ∧  -- MOV r0, #0x55
    decode (.thumb 0x2800) = .ok (.tCmpImm 0 0) ∧  -- CMP r0, #0
    decode (.thumb 0x31FF) = .ok (.tAddImm8 1 0xFF) ∧  -- ADD r1, #255
    decode (.thumb 0x3801) = .ok (.tSubImm8 0 1) := by  -- SUB r0, #1
  decide

theorem test_decode_thumb_register_operations_1 :
    decode (.thumb 0x4008) = .ok (.tAnd 1 0) ∧  -- AND r0, r1
    decode (.thumb 0x4048) = .ok (.tEor 1 0) ∧  -- EOR r0, r1
    decode (.thumb 0x4088) = .ok (.tLslReg 1 0) ∧  -- LSL r0, r1
    decode (.thumb 0x40C8) = .ok (.tLsrReg 1 0) ∧  -- LSR r0, r1
    decode (.thumb 0x4108) = .ok (.tAsrReg 1 0) ∧  -- ASR r0, r1
    decode (.thumb 0x4148) = .ok (.tAdc 1 0) ∧  -- ADC r0, r1
    decode (.thumb 0x4188) = .ok (.tSbc 1 0) ∧  -- SBC r0, r1
    decode (.thumb 0x41C8) = .ok (.tRor 1 0) ∧  -- ROR r0, r1
    decode (.thumb 0x4208) = .ok (.tTst 1 0) ∧  -- TST r0, r1
    decode (.thumb 0x4248) = .ok (.tNeg 1 0) ∧  -- NEG r0, r1
    decode (.thumb 0x4288) = .ok (.tCmpReg 1 0) ∧  -- CMP r0, r1
    decode (.thumb 0x42C8) = .ok (.tCmn 1 0) := by  -- CMN r0, r1
  decide

theorem test_decode_thumb_register_operations_2 :
    decode (.thumb 0x4308) = .ok (.tOrr 1 0) ∧  -- ORR r0, r1
    decode (.thumb 0x4348) = .ok (.tMul 1 0) ∧  -- MUL r0, r1
    decode (.thumb 0x4388) = .ok (.tBic 1 0) ∧  -- BIC r0, r1
    decode (.thumb 0x43C8) = .ok (.tMvn 1 0) := by  -- MVN r0, r1
  decide

theorem test_decode_thumb_high_registers_and_stack :
    decode (.thumb 0x4488) = .ok (.tAddHi true false 1 0) ∧  -- ADD r8, r1
    decode (.thumb 0x4588) = .ok (.tCmpHi true false 1 0) ∧  -- CMP r8, r1
    decode (.thumb 0x46C0) = .ok (.tMovHi true true 0 0) ∧  -- MOV r8, r8
    decode (.thumb 0xA001) = .ok (.tAddPc 0 1) ∧  -- ADD r0, PC, #4
    decode (.thumb 0xA902) = .ok (.tAddSp 1 2) ∧  -- ADD r1, SP, #8
    decode (.thumb 0xB004) = .ok (.tIncSp 4) ∧  -- ADD SP, #16
    decode (.thumb 0xB084) = .ok (.tDecSp 4) ∧  -- SUB SP, #16
    decode (.thumb 0x4778) = .ok (.tBx true 7 0) ∧  -- BX PC
    decode (.thumb 0x4798) = .ok (.tBlxReg false 3 0) := by  -- BLX r3
  decide

theorem test_decode_thumb_loads_and_stores_1 :
    decode (.thumb 0x4801) = .ok (.tLdrPc 0 1) ∧  -- LDR r0, [PC, #4]
    decode (.thumb 0x5088) = .ok (.tStrReg 2 1 0) ∧  -- STR r0, [r1, r2]
    decode (.thumb 0x5288) = .ok (.tStrhReg 2 1 0) ∧  -- STRH r0, [r1, r2]
    decode (.thumb 0x5488) = .ok (.tStrbReg 2 1 0) ∧  -- STRB r0, [r1, r2]
    decode (.thumb 0x5688) = .ok (.tLdrsb 2 1 0) ∧  -- LDRSB r0, [r1, r2]
    decode (.thumb 0x5888) = .ok (.tLdrReg 2 1 0) ∧  -- LDR r0, [r1, r2]
    decode (.thumb 0x5A88) = .ok (.tLdrhReg 2 1 0) ∧  -- LDRH r0, [r1, r2]
    decode (.thumb 0x5C88) = .ok (.tLdrbReg 2 1 0) ∧  -- LDRB r0, [r1, r2]
    decode (.thumb 0x5E88) = .ok (.tLdrsh 2 1 0) ∧  -- LDRSH r0, [r1, r2]
    decode (.thumb 0x6048) = .ok (.tStrImm 1 1 0) ∧  -- STR r0, [r1, #4]
    decode (.thumb 0x6848) = .ok (.tLdrImm 1 1 0) ∧  -- LDR r0, [r1, #4]
    decode (.thumb 0x7048) = .ok (.tStrbImm 1 1 0) := by  -- STRB r0, [r1, #1]
  decide

theorem test_decode_thumb_loads_and_stores_2 :
    decode (.thumb 0x7848) = .ok (.tLdrbImm 1 1 0) ∧  -- LDRB r0, [r1, #1]
    decode (.thumb 0x8048) = .ok (.tStrhImm 1 1 0) ∧  -- STRH r0, [r1, #2]
    decode (.thumb 0x8848) = .ok (.tLdrhImm 1 1 0) ∧  -- LDRH r0, [r1, #2]
    decode (.thumb 0x9001) = .ok (.tStrSp 0 1) ∧  -- STR r0, [SP, #4]
    decode (.thumb 0x9801) = .ok (.tLdrSp 0 1) := by  -- LDR r0, [SP, #4]
  decide

theorem test_decode_thumb_multiples_and_branches :
    decode (.thumb 0xB510) = .ok (.tPush true 0x10) ∧  -- PUSH {r4, LR}
    decode (.thumb 0xBD10) = .ok (.tPop true 0x10) ∧  -- POP {r4, PC}
    decode (.thumb 0xBEAB) = .ok (.tBkpt 0xAB) ∧  -- BKPT 0xAB
    decode (.thumb 0xC006) = .ok (.tStmia 0 6) ∧  -- STMIA r0!, {r1, r2}
    decode (.thumb 0xC80E) = .ok (.tLdmia 0 14) ∧  -- LDMIA r0!, {r1-r3}
    decode (.thumb 0xD1FC) = .ok (.tBCond .ne 0xFC) ∧  -- BNE
    decode (.thumb 0xDE00) = .ok (.tUndef 0) ∧  -- undefined
    decode (.thumb 0xDFAB) = .ok (.tSwi 0xAB) ∧  -- SWI 0xAB
    decode (.thumb 0xE7FE) = .ok (.tB 0x7FE) ∧  -- B .
    decode (.thumb 0xE87E) = .ok (.tBlxSuffix 0x3F) ∧  -- BLX(1), second half
    decode (.thumb 0xF7FF) = .ok (.tBlPrefix 0x7FF) ∧  -- BL, first half
    decode (.thumb 0xFF7E) = .ok (.tBlSuffix 0x77E) := by  -- BL, second half
  decide

-- ADDS r0, r1, r2, spec/95_test_vectors.md section B1 row 1.
theorem test_adds_b1_1 :
    runs 32 0xE0910002 (machine 0xD3 0x8000 [(1, 0x7FFFFFFF), (2, 1)] []) [0] [] =
      some (0x8004, 0x900000D3, [0x80000000], []) := by decide

-- SUBS r0, r1, r2, spec/95_test_vectors.md section B1 row 5.
theorem test_subs_b1_5 :
    runs 32 0xE0510002 (machine 0xD3 0x8000 [(1, 3), (2, 5)] []) [0] [] =
      some (0x8004, 0x800000D3, [0xFFFFFFFE], []) := by decide

-- SBCS r0, r1, r2, spec/95_test_vectors.md section B1 row 7.
theorem test_sbcs_b1_7 :
    runs 32 0xE0D10002 (machine 0xD3 0x8000 [(1, 5), (2, 5)] []) [0] [] =
      some (0x8004, 0x800000D3, [0xFFFFFFFF], []) := by decide

-- RSBS r0, r1, #0, spec/95_test_vectors.md section B1 row 8.
theorem test_rsbs_b1_8 :
    runs 32 0xE2710000 (machine 0xD3 0x8000 [(1, 1)] []) [0] [] =
      some (0x8004, 0x800000D3, [0xFFFFFFFF], []) := by decide

-- RSCS r0, r1, #0, spec/95_test_vectors.md section B1 row 9.
theorem test_rscs_b1_9 :
    runs 32 0xE2F10000 (machine 0xD3 0x8000 [(1, 0)] []) [0] [] =
      some (0x8004, 0x800000D3, [0xFFFFFFFF], []) := by decide

-- CMP r1, r2, spec/95_test_vectors.md section B1 row 10.
theorem test_cmp_b1_10 :
    runs 32 0xE1510002 (machine 0xD3 0x8000 [(1, 0x80000000), (2, 1)] []) [] [] =
      some (0x8004, 0x300000D3, [], []) := by decide

-- CMN r1, r2, spec/95_test_vectors.md section B1 row 11.
theorem test_cmn_b1_11 :
    runs 32 0xE1710002 (machine 0xD3 0x8000 [(1, 0x7FFFFFFF), (2, 1)] []) [] [] =
      some (0x8004, 0x900000D3, [], []) := by decide

-- ANDS r0, r1, #0xFF000000, spec/95_test_vectors.md section B1 row 12.
theorem test_ands_b1_12 :
    runs 32 0xE21104FF (machine 0xD3 0x8000 [(1, 0x80000001)] []) [0] [] =
      some (0x8004, 0xA00000D3, [0x80000000], []) := by decide

-- MOVS r0, #0, spec/95_test_vectors.md section B1 row 13.
theorem test_movs_b1_13 :
    runs 32 0xE3B00000 (machine 0xB00000D3 0x8000 [] []) [0] [] =
      some (0x8004, 0x700000D3, [0], []) := by decide

-- MOVS r0, r1, RRX, spec/95_test_vectors.md section B1 row 17.
theorem test_movs_b1_17 :
    runs 32 0xE1B00061 (machine 0x200000D3 0x8000 [(1, 3)] []) [0] [] =
      some (0x8004, 0xA00000D3, [0x80000001], []) := by decide

-- MOVS r0, r1, LSL r2, spec/95_test_vectors.md section B1 row 20.
theorem test_movs_b1_20 :
    runs 32 0xE1B00211 (machine 0x200000D3 0x8000 [(1, 1), (2, 0x21)] []) [0] [] =
      some (0x8004, 0x400000D3, [0], []) := by decide

-- MOVS r0, r1, ROR r2, spec/95_test_vectors.md section B1 row 24.
theorem test_movs_b1_24 :
    runs 32 0xE1B00271 (machine 0xD3 0x8000 [(1, 0x80000001), (2, 0x104)] []) [0] [] =
      some (0x8004, 0xD3, [0x18000000], []) := by decide

-- TEQ r1, r1, LSL #1, spec/95_test_vectors.md section B1 row 26.
theorem test_teq_b1_26 :
    runs 32 0xE1310081 (machine 0x100000D3 0x8000 [(1, 0x40000000)] []) [] [] =
      some (0x8004, 0x900000D3, [], []) := by decide

-- BICS r0, r1, r2, spec/95_test_vectors.md section B1 row 27.
theorem test_bics_b1_27 :
    runs 32 0xE1D10002 (machine 0x200000D3 0x8000 [(1, 0xFFFFFFFF), (2, 0xFFFFFFFF)] []) [0] [] =
      some (0x8004, 0x600000D3, [0], []) := by decide

-- MVNS r0, r1, spec/95_test_vectors.md section B1 row 28.
theorem test_mvns_b1_28 :
    runs 32 0xE1F00001 (machine 0xD3 0x8000 [(1, 0)] []) [0] [] =
      some (0x8004, 0x800000D3, [0xFFFFFFFF], []) := by decide

-- ADD r0, pc, #4, spec/95_test_vectors.md section B1 row 29.
theorem test_add_b1_29 :
    runs 32 0xE28F0004 (machine 0xD3 0x8000 [] []) [0] [] =
      some (0x8004, 0xD3, [0x800C], []) := by decide

-- ADDEQ r0, r0, #1, spec/95_test_vectors.md section B1 row 31.
theorem test_addeq_b1_31 :
    runs 32 0x02800001 (machine 0xD3 0x8000 [(0, 5)] []) [0] [] =
      some (0x8004, 0xD3, [5], []) := by decide

-- CLZ r0, r1, spec/95_test_vectors.md section B1 row 33.
theorem test_clz_b1_33 :
    runs 32 0xE16F0F11 (machine 0xD3 0x8000 [(1, 0xFFFF)] []) [0] [] =
      some (0x8004, 0xD3, [0x10], []) := by decide

-- MULS r0, r1, r2, spec/95_test_vectors.md section B2 row 1.
theorem test_muls_b2_1 :
    runs 32 0xE0100291 (machine 0x300000D3 0x8000 [(1, 0x10000), (2, 0x10000)] []) [0] [] =
      some (0x8004, 0x700000D3, [0], []) := by decide

-- MLAS r0, r1, r2, r3, spec/95_test_vectors.md section B2 row 3.
theorem test_mlas_b2_3 :
    runs 32 0xE0303291 (machine 0xD3 0x8000 [(1, 0xFFFF), (2, 0x10001), (3, 1)] []) [0] [] =
      some (0x8004, 0x400000D3, [0], []) := by decide

-- UMULLS r0, r1, r2, r3, spec/95_test_vectors.md section B2 row 5.
theorem test_umulls_b2_5 :
    runs 32 0xE0910392 (machine 0xD3 0x8000 [(2, 0xFFFFFFFF), (3, 0xFFFFFFFF)] []) [0, 1] [] =
      some (0x8004, 0x800000D3, [1, 0xFFFFFFFE], []) := by decide

-- SMULLS r0, r1, r2, r3, spec/95_test_vectors.md section B2 row 6.
theorem test_smulls_b2_6 :
    runs 32 0xE0D10392 (machine 0xD3 0x8000 [(2, 0x80000000), (3, 0x7FFFFFFF)] []) [0, 1] [] =
      some (0x8004, 0x800000D3, [0x80000000, 0xC0000000], []) := by decide

-- UMLAL r0, r1, r2, r3, spec/95_test_vectors.md section B2 row 7.
theorem test_umlal_b2_7 :
    runs 32 0xE0A10392 (machine 0xD3 0x8000 [(0, 0xFFFFFFFF), (1, 0xFFFFFFFF), (2, 1), (3, 1)] []) [0, 1] [] =
      some (0x8004, 0xD3, [0, 0], []) := by decide

-- SMLAL r0, r1, r2, r3, spec/95_test_vectors.md section B2 row 8.
theorem test_smlal_b2_8 :
    runs 32 0xE0E10392 (machine 0xD3 0x8000 [(0, 0), (1, 0), (2, 0xFFFFFFFF), (3, 1)] []) [0, 1] [] =
      some (0x8004, 0xD3, [0xFFFFFFFF, 0xFFFFFFFF], []) := by decide

-- SMULTT r0, r1, r2, spec/95_test_vectors.md section B2 row 10.
theorem test_smultt_b2_10 :
    runs 32 0xE16002E1 (machine 0xD3 0x8000 [(1, 0x7FFF0000), (2, 0x80000000)] []) [0] [] =
      some (0x8004, 0xD3, [0xC0008000], []) := by decide

-- SMULTB r0, r1, r2, spec/95_test_vectors.md section B2 row 11.
theorem test_smultb_b2_11 :
    runs 32 0xE16002A1 (machine 0xD3 0x8000 [(1, 0x20000), (2, 0xFFFF)] []) [0] [] =
      some (0x8004, 0xD3, [0xFFFFFFFE], []) := by decide

-- SMLABB r0, r1, r2, r3, spec/95_test_vectors.md section B2 row 12.
theorem test_smlabb_b2_12 :
    runs 32 0xE1003281 (machine 0xD3 0x8000 [(1, 0x8000), (2, 0x8000), (3, 0x40000000)] []) [0] [] =
      some (0x8004, 0x80000D3, [0x80000000], []) := by decide

-- SMULWT r0, r1, r2, spec/95_test_vectors.md section B2 row 15.
theorem test_smulwt_b2_15 :
    runs 32 0xE12002E1 (machine 0xD3 0x8000 [(1, 0x18000), (2, 0xFFFF0000)] []) [0] [] =
      some (0x8004, 0xD3, [0xFFFFFFFE], []) := by decide

-- SMLAWB r0, r1, r2, r3, spec/95_test_vectors.md section B2 row 16.
theorem test_smlawb_b2_16 :
    runs 32 0xE1203281 (machine 0xD3 0x8000 [(1, 0x7FFFFFFF), (2, 0x7FFF), (3, 0x7FFFFFFF)] []) [0] [] =
      some (0x8004, 0x80000D3, [0xBFFF7FFE], []) := by decide

-- SMLALTT r0, r1, r2, r3, spec/95_test_vectors.md section B2 row 18.
theorem test_smlaltt_b2_18 :
    runs 32 0xE14103E2 (machine 0xD3 0x8000 [(0, 0), (1, 0x80000000), (2, 0xFFFF0000), (3, 0x10000)] []) [0, 1] [] =
      some (0x8004, 0xD3, [0xFFFFFFFF, 0x7FFFFFFF], []) := by decide

-- QADD r0, r1, r2, spec/95_test_vectors.md section B2 row 20.
theorem test_qadd_b2_20 :
    runs 32 0xE1020051 (machine 0xD3 0x8000 [(1, 0x80000000), (2, 0x80000000)] []) [0] [] =
      some (0x8004, 0x80000D3, [0x80000000], []) := by decide

-- QSUB r0, r1, r2, spec/95_test_vectors.md section B2 row 23.
theorem test_qsub_b2_23 :
    runs 32 0xE1220051 (machine 0xD3 0x8000 [(1, 0), (2, 0x80000000)] []) [0] [] =
      some (0x8004, 0x80000D3, [0x7FFFFFFF], []) := by decide

-- QDADD r0, r1, r2, spec/95_test_vectors.md section B2 row 27.
theorem test_qdadd_b2_27 :
    runs 32 0xE1420051 (machine 0xD3 0x8000 [(1, 2), (2, 0x3FFFFFFF)] []) [0] [] =
      some (0x8004, 0x80000D3, [0x7FFFFFFF], []) := by decide

-- QDSUB r0, r1, r2, spec/95_test_vectors.md section B2 row 29.
theorem test_qdsub_b2_29 :
    runs 32 0xE1620051 (machine 0xD3 0x8000 [(1, 0xFFFFFFFF), (2, 0x80000000)] []) [0] [] =
      some (0x8004, 0x80000D3, [0x7FFFFFFF], []) := by decide

-- B 0x7FF8, spec/95_test_vectors.md section B3 row 2.
theorem test_b_b3_2 :
    runs 32 0xEAFFFFFC (machine 0xD3 0x8000 [] []) [] [] =
      some (0x7FF8, 0xD3, [], []) := by decide

-- BL 0x8100, spec/95_test_vectors.md section B3 row 3.
theorem test_bl_b3_3 :
    runs 32 0xEB00003E (machine 0xD3 0x8000 [(14, 0xDEAD)] []) [14] [] =
      some (0x8100, 0xD3, [0x8004], []) := by decide

-- BLX 0x8102, spec/95_test_vectors.md section B3 row 5.
theorem test_blx_b3_5 :
    runs 32 0xFB00003E (machine 0xD3 0x8000 [] []) [14] [] =
      some (0x8102, 0xF3, [0x8004], []) := by decide

-- BX r0, spec/95_test_vectors.md section B3 row 8.
theorem test_bx_b3_8 : runs 32 0xE12FFF10 (machine 0xD3 0x8000 [(0, 0x9002)] []) [] [] = none := by decide

-- BLX r3, spec/95_test_vectors.md section B3 row 9.
theorem test_blx_b3_9 :
    runs 32 0xE12FFF33 (machine 0xD3 0x8000 [(3, 0x9001), (14, 0)] []) [14] [] =
      some (0x9000, 0xF3, [0x8004], []) := by decide

-- MRS r0, CPSR, spec/95_test_vectors.md section B3 row 10.
theorem test_mrs_b3_10 :
    runs 32 0xE10F0000 (machine 0x88000053 0x8000 [] []) [0] [] =
      some (0x8004, 0x88000053, [0x88000053], []) := by decide

-- MSR CPSR_c, #0x1F, spec/95_test_vectors.md section B3 row 12.
theorem test_msr_b3_12 :
    runs 32 0xE321F01F (machine 0x20000010 0x8000 [] []) [] [] =
      some (0x8004, 0x20000010, [], []) := by decide

-- MSR CPSR_fc, r0, spec/95_test_vectors.md section B3 row 14.
theorem test_msr_b3_14 :
    runs 32 0xE129F000 (machine 0xD3 0x8000 [(0, 0xF80000D2)] []) [] [] =
      some (0x8004, 0xF80000D2, [], []) := by decide

-- MSR SPSR_fsxc, r0, spec/95_test_vectors.md section B3 row 15.
theorem test_msr_b3_15 :
    runs 32 0xE16FF000 ((machine 0xD3 0x8000 [(0, 0x6000003F)] []).setSpsr .svc (Psr.ofWord 0)) [] [] =
      some (0x8004, 0xD3, [], []) := by decide

theorem test_msr_b3_15_saved :
    (match step (((machine 0xD3 0x8000 [(0, 0x6000003F)] []).setSpsr .svc (Psr.ofWord 0)).withFetchWord 32 0xE16FF000) with
      | .next t => (t.spsr .svc).toWord
      | _ => 0) = 0x6000003F := by decide

-- MRS r0, SPSR in User mode, spec/95_test_vectors.md section B3 row 16.
theorem test_mrs_b3_16 : runs 32 0xE14F0000 (machine 0x10 0x8000 [] []) [] [] = none := by decide

-- SWI 0x123456, spec/95_test_vectors.md section B3 row 17.
theorem test_swi_b3_17 :
    runs 32 0xEF123456 (machine 0x60000010 0x8000 [] []) [14] [] =
      some (8, 0x60000093, [0x8004], []) := by decide

theorem test_swi_b3_17_saved :
    (match step ((machine 0x60000010 0x8000 [] []).withFetchWord 32 0xEF123456) with
      | .next t => (t.spsr .svc).toWord
      | _ => 0) = 0x60000010 := by decide

-- BKPT 0x00AB, spec/95_test_vectors.md section B3 row 19.
theorem test_bkpt_b3_19 :
    runs 32 0xE1200A7B (machine 0x10 0x8000 [] []) [14] [] =
      some (0xC, 0x97, [0x8004], []) := by decide

theorem test_bkpt_b3_19_saved :
    (match step ((machine 0x10 0x8000 [] []).withFetchWord 32 0xE1200A7B) with
      | .next t => (t.spsr .abt).toWord
      | _ => 0) = 0x10 := by decide

-- MOVS pc, r14, spec/95_test_vectors.md section B3 row 21.
theorem test_movs_b3_21 :
    runs 32 0xE1B0F00E ((machine 0xD3 8 [(14, 0x8103)] []).setSpsr .svc (Psr.ofWord 0x40000030)) [] [] =
      some (0x8102, 0x40000030, [], []) := by decide

-- SUBS pc, r14, #4, spec/95_test_vectors.md section B3 row 22.
theorem test_subs_b3_22 :
    runs 32 0xE25EF004 ((machine 0x92 0x18 [(14, 0x8008)] []).setSpsr .irq (Psr.ofWord 0x80000010)) [] [] =
      some (0x8004, 0x80000010, [], []) := by decide

-- LDR r0, [r1, -r2, LSL #2], spec/95_test_vectors.md section B4 row 3.
theorem test_ldr_b4_3 :
    runs 32 0xE7110102 (machine 0xD3 0x8000 [(1, 0x1008), (2, 1)] [(0x1000, 0x11223344), (0x1004, 0x55667788)]) [0, 1, 2] [] =
      some (0x8004, 0xD3, [0x55667788, 0x1008, 1], []) := by decide

-- LDR r0, [r1], spec/95_test_vectors.md section B4 row 4.
theorem test_ldr_b4_4 :
    runs 32 0xE5910000 (machine 0xD3 0x8000 [(1, 0x1002)] [(0x1000, 0x11223344), (0x1004, 0x55667788)]) [0, 1] [] =
      some (0x8004, 0xD3, [0x33441122, 0x1002], []) := by decide

-- LDR r0, [r1], spec/95_test_vectors.md section B4 row 6.
theorem test_ldr_b4_6 :
    runs 32 0xE5910000 (withControl false false true (machine 0xD3 0x8000 [(1, 0x1001), (0, 0xAAAAAAAA)] [(0x1000, 0x11223344), (0x1004, 0x55667788)])) [0, 1, 14] [] =
      some (0x10, 0xD7, [0xAAAAAAAA, 0x1001, 0x8008], []) := by decide

-- LDRB r0, [r1, #3], spec/95_test_vectors.md section B4 row 9.
theorem test_ldrb_b4_9 :
    runs 32 0xE5D10003 (withControl false true false (machine 0xD3 0x8000 [(1, 0x1000)] [(0x1000, 0x11223344), (0x1004, 0x55667788)])) [0, 1] [] =
      some (0x8004, 0xD3, [0x44, 0x1000], []) := by decide

-- LDRH r0, [r1], spec/95_test_vectors.md section B4 row 11.
theorem test_ldrh_b4_11 :
    runs 32 0xE1D100B0 (withControl false true false (machine 0xD3 0x8000 [(1, 0x1000)] [(0x1000, 0x11223344), (0x1004, 0x55667788)])) [0, 1] [] =
      some (0x8004, 0xD3, [0x1122, 0x1000], []) := by decide

-- LDRSH r0, [r1, #6], spec/95_test_vectors.md section B4 row 12.
theorem test_ldrsh_b4_12 :
    runs 32 0xE1D100F6 (machine 0xD3 0x8000 [(1, 0x1000)] [(0x1004, 0x80017FFF)]) [0, 1] [] =
      some (0x8004, 0xD3, [0xFFFF8001, 0x1000], []) := by decide

-- LDRSB r0, [r1, #-1]!, spec/95_test_vectors.md section B4 row 13.
theorem test_ldrsb_b4_13 :
    runs 32 0xE17100D1 (machine 0xD3 0x8000 [(1, 0x1001)] [(0x1000, 0xF0)]) [0, 1] [] =
      some (0x8004, 0xD3, [0xFFFFFFF0, 0x1000], []) := by decide

-- LDRH r0, [r1], r2, spec/95_test_vectors.md section B4 row 14.
theorem test_ldrh_b4_14 :
    runs 32 0xE09100B2 (machine 0xD3 0x8000 [(1, 0x1000), (2, 0x10)] [(0x1000, 0x11223344), (0x1004, 0x55667788)]) [0, 1, 2] [] =
      some (0x8004, 0xD3, [0x3344, 0x1010, 0x10], []) := by decide

-- STR r0, [r1, #2], spec/95_test_vectors.md section B4 row 15.
theorem test_str_b4_15 :
    runs 32 0xE5810002 (machine 0xD3 0x8000 [(0, 0xAABBCCDD), (1, 0x1000)] [(0x1000, 0x11223344), (0x1004, 0x55667788)]) [0, 1] [0x1000] =
      some (0x8004, 0xD3, [0xAABBCCDD, 0x1000], [0xAABBCCDD]) := by decide

-- STRB r0, [r1], spec/95_test_vectors.md section B4 row 16.
theorem test_strb_b4_16 :
    runs 32 0xE5C10000 (withControl false true false (machine 0xD3 0x8000 [(0, 0xAABBCCDD), (1, 0x1000)] [(0x1000, 0x11223344), (0x1004, 0x55667788)])) [0, 1] [0x1000] =
      some (0x8004, 0xD3, [0xAABBCCDD, 0x1000], [0xDD223344]) := by decide

-- STRH r0, [r1, #2], spec/95_test_vectors.md section B4 row 17.
theorem test_strh_b4_17 :
    runs 32 0xE1C100B2 (withControl false true false (machine 0xD3 0x8000 [(0, 0xAABBCCDD), (1, 0x1000)] [(0x1000, 0x11223344), (0x1004, 0x55667788)])) [0, 1] [0x1000] =
      some (0x8004, 0xD3, [0xAABBCCDD, 0x1000], [0x1122CCDD]) := by decide

-- LDRD r2, [r1], spec/95_test_vectors.md section B4 row 18.
theorem test_ldrd_b4_18 :
    runs 32 0xE1C120D0 (machine 0xD3 0x8000 [(1, 0x1000)] [(0x1000, 0x11223344), (0x1004, 0x55667788)]) [1, 2, 3] [] =
      some (0x8004, 0xD3, [0x1000, 0x11223344, 0x55667788], []) := by decide

-- LDMDB r0!, r1, r2, r3, spec/95_test_vectors.md section B5 row 4.
theorem test_ldmdb_b5_4 :
    runs 32 0xE930000E (machine 0xD3 0x8000 [(0, 0x1010)] [(0x1000, 0xA0), (0x1004, 0xA1), (0x1008, 0xA2), (0x100C, 0xA3), (0x1010, 0xA4)]) [0, 1, 2, 3] [] =
      some (0x8004, 0xD3, [0x1004, 0xA1, 0xA2, 0xA3], []) := by decide

-- STMIA r0!, r0, r1, spec/95_test_vectors.md section B5 row 6.
theorem test_stmia_b5_6 :
    runs 32 0xE8A00003 (machine 0xD3 0x8000 [(0, 0x2000), (1, 7)] []) [0, 1] [0x2000, 0x2004] =
      some (0x8004, 0xD3, [0x2008, 7], [0x2000, 7]) := by decide

-- STMDB r13!, r0-r3, spec/95_test_vectors.md section B5 row 7.
theorem test_stmdb_b5_7 :
    runs 32 0xE92D000F (machine 0xD3 0x8000 [(13, 0x2010), (0, 1), (1, 2), (2, 3), (3, 4)] []) [0, 1, 2, 3, 13] [0x2000, 0x2004, 0x2008, 0x200C] =
      some (0x8004, 0xD3, [1, 2, 3, 4, 0x2000], [1, 2, 3, 4]) := by decide

-- LDMIA r13!, r4, pc, spec/95_test_vectors.md section B5 row 9.
theorem test_ldmia_b5_9 :
    runs 32 0xE8BD8010 (machine 0xD3 0x8000 [(13, 0x1FF8)] [(0x1FF8, 0x44), (0x1FFC, 0x9001)]) [4, 13] [] =
      some (0x9000, 0xF3, [0x44, 0x2000], []) := by decide

-- LDMIA r13!, r0, r1, pc^, spec/95_test_vectors.md section B5 row 12.
theorem test_ldmia_b5_12 :
    runs 32 0xE8FD8003 ((machine 0x92 0x8000 [(13, 0x1FF4)] [(0x1FF4, 1), (0x1FF8, 2), (0x1FFC, 0x8004)]).setSpsr .irq (Psr.ofWord 0x20000010)) [0, 1] [] =
      some (0x8004, 0x20000010, [1, 2], []) := by decide

-- SWP r0, r1, [r2], spec/95_test_vectors.md section B5 row 13.
theorem test_swp_b5_13 :
    runs 32 0xE1020091 (machine 0xD3 0x8000 [(0, 0), (1, 1), (2, 0x1000)] [(0x1000, 0xFFFFFFFF)]) [0, 1, 2] [0x1000] =
      some (0x8004, 0xD3, [0xFFFFFFFF, 1, 0x1000], [1]) := by decide

-- SWPB r0, r1, [r2], spec/95_test_vectors.md section B5 row 16.
theorem test_swpb_b5_16 :
    runs 32 0xE1420091 (machine 0xD3 0x8000 [(0, 0), (1, 0xFFFFFF01), (2, 0x1003)] [(0x1000, 0x7E223344)]) [0, 1, 2] [0x1000] =
      some (0x8004, 0xD3, [0x7E, 0xFFFFFF01, 0x1003], [0x1223344]) := by decide

-- CDP p1, 0, c0, c0, c0, 0, spec/95_test_vectors.md section B6 row 1.
theorem test_cdp_b6_1 :
    runs 32 0xEE000100 (machine 0xD3 0x8000 [] []) [14] [] =
      some (4, 0xDB, [0x8004], []) := by decide

theorem test_cdp_b6_1_saved :
    (match step ((machine 0xD3 0x8000 [] []).withFetchWord 32 0xEE000100) with
      | .next t => (t.spsr .und).toWord
      | _ => 0) = 0xD3 := by decide

-- LDC p1, c0, [r0], spec/95_test_vectors.md section B6 row 3.
theorem test_ldc_b6_3 :
    runs 32 0xED900100 (machine 0xD3 0x8000 [] []) [14] [] =
      some (4, 0xDB, [0x8004], []) := by decide

theorem test_ldc_b6_3_saved :
    (match step ((machine 0xD3 0x8000 [] []).withFetchWord 32 0xED900100) with
      | .next t => (t.spsr .und).toWord
      | _ => 0) = 0xD3 := by decide

-- MCR p7, 0, r0, c0, c0, 0, spec/95_test_vectors.md section B6 row 5.
theorem test_mcr_b6_5 :
    runs 32 0xEE000710 (machine 0xD3 0x8000 [] []) [14] [] =
      some (4, 0xDB, [0x8004], []) := by decide

theorem test_mcr_b6_5_saved :
    (match step ((machine 0xD3 0x8000 [] []).withFetchWord 32 0xEE000710) with
      | .next t => (t.spsr .und).toWord
      | _ => 0) = 0xD3 := by decide

-- MRC p7, 0, r0, c0, c0, 0, spec/95_test_vectors.md section B6 row 6.
theorem test_mrc_b6_6 :
    runs 32 0xEE100710 (machine 0x10 0x8000 [] []) [14] [] =
      some (4, 0x9B, [0x8004], []) := by decide

theorem test_mrc_b6_6_saved :
    (match step ((machine 0x10 0x8000 [] []).withFetchWord 32 0xEE100710) with
      | .next t => (t.spsr .und).toWord
      | _ => 0) = 0x10 := by decide

-- MCRR p15, 0, r0, r1, c0, spec/95_test_vectors.md section B6 row 8.
theorem test_mcrr_b6_8 :
    runs 32 0xEC410F00 (machine 0xD3 0x8000 [] []) [14] [] =
      some (4, 0xDB, [0x8004], []) := by decide

theorem test_mcrr_b6_8_saved :
    (match step ((machine 0xD3 0x8000 [] []).withFetchWord 32 0xEC410F00) with
      | .next t => (t.spsr .und).toWord
      | _ => 0) = 0xD3 := by decide

-- CDP2 p1, 0, c0, c0, c0, 0, spec/95_test_vectors.md section B6 row 10.
theorem test_cdp_b6_10 :
    runs 32 0xFE000100 (machine 0xD3 0x8000 [] []) [14] [] =
      some (4, 0xDB, [0x8004], []) := by decide

theorem test_cdp_b6_10_saved :
    (match step ((machine 0xD3 0x8000 [] []).withFetchWord 32 0xFE000100) with
      | .next t => (t.spsr .und).toWord
      | _ => 0) = 0xD3 := by decide

-- MCR2 p15, 0, r0, c7, c0, 4, spec/95_test_vectors.md section B6 row 11.
theorem test_mcr_b6_11 : runs 32 0xFE070F90 (machine 0xD3 0x8000 [] []) [] [] = none := by decide

-- MCR p15, 0, r0, c1, c0, 0, spec/95_test_vectors.md section B6 row 13.
theorem test_mcr_b6_13 :
    runs 32 0xEE010F10 (machine 0x10 0x8000 [] []) [14] [] =
      some (4, 0x9B, [0x8004], []) := by decide

theorem test_mcr_b6_13_saved :
    (match step ((machine 0x10 0x8000 [] []).withFetchWord 32 0xEE010F10) with
      | .next t => (t.spsr .und).toWord
      | _ => 0) = 0x10 := by decide

-- MRC p15, 0, r0, c0, c0, 0, spec/95_test_vectors.md section B6 row 15.
theorem test_mrc_b6_15 :
    runs 32 0xEE100F10 (machine 0xD3 0x8000 [] []) [0] [] =
      some (0x8004, 0xD3, [0x41059681], []) := by decide

-- (bits [27:25] = 011, bit [4] = 1), spec/95_test_vectors.md section B6 row 17.
theorem test_bits_b6_17 :
    runs 32 0xE7F000F0 (machine 0x10 0x8000 [] []) [14] [] =
      some (4, 0x9B, [0x8004], []) := by decide

theorem test_bits_b6_17_saved :
    (match step ((machine 0x10 0x8000 [] []).withFetchWord 32 0xE7F000F0) with
      | .next t => (t.spsr .und).toWord
      | _ => 0) = 0x10 := by decide

-- (bits [27:23] = 00110, bits [21:20] = 00), spec/95_test_vectors.md section B6 row 18.
theorem test_bits_b6_18 :
    runs 32 0xE3000000 (machine 0xD3 0x8000 [] []) [14] [] =
      some (4, 0xDB, [0x8004], []) := by decide

theorem test_bits_b6_18_saved :
    (match step ((machine 0xD3 0x8000 [] []).withFetchWord 32 0xE3000000) with
      | .next t => (t.spsr .und).toWord
      | _ => 0) = 0xD3 := by decide

-- (cond = 1111, not one of the unconditional instructions), spec/95_test_vectors.md section B6 row 20.
theorem test_cond_b6_20 : runs 32 0xF1000000 (machine 0xD3 0x8000 [] []) [] [] = none := by decide

-- LSL r0, r1, #0, spec/95_test_vectors.md section B7 row 1.
theorem test_thumb_lsl_b7_1 :
    runs 16 0x0008 (machine 0x200000F3 0x8000 [(1, 0x80000001)] []) [0] [] =
      some (0x8002, 0xA00000F3, [0x80000001], []) := by decide

-- LSR r0, r1, #32, spec/95_test_vectors.md section B7 row 3.
theorem test_thumb_lsr_b7_3 :
    runs 16 0x0808 (machine 0xF3 0x8000 [(1, 0x80000000)] []) [0] [] =
      some (0x8002, 0x600000F3, [0], []) := by decide

-- ASR r0, r1, #4, spec/95_test_vectors.md section B7 row 5.
theorem test_thumb_asr_b7_5 :
    runs 16 0x1108 (machine 0xF3 0x8000 [(1, 0x80000008)] []) [0] [] =
      some (0x8002, 0xA00000F3, [0xF8000000], []) := by decide

-- ADD r0, r1, r2, spec/95_test_vectors.md section B7 row 6.
theorem test_thumb_add_b7_6 :
    runs 16 0x1888 (machine 0xF3 0x8000 [(1, 0x7FFFFFFF), (2, 1)] []) [0] [] =
      some (0x8002, 0x900000F3, [0x80000000], []) := by decide

-- SUB r0, r1, r2, spec/95_test_vectors.md section B7 row 7.
theorem test_thumb_sub_b7_7 :
    runs 16 0x1A88 (machine 0xF3 0x8000 [(1, 0), (2, 1)] []) [0] [] =
      some (0x8002, 0x800000F3, [0xFFFFFFFF], []) := by decide

-- MOV r0, r1 (ADD r0, r1, #0), spec/95_test_vectors.md section B7 row 9.
theorem test_thumb_mov_b7_9 :
    runs 16 0x1C08 (machine 0x300000F3 0x8000 [(1, 0x80000000)] []) [0] [] =
      some (0x8002, 0x800000F3, [0x80000000], []) := by decide

-- SUB r0, r1, #1, spec/95_test_vectors.md section B7 row 10.
theorem test_thumb_sub_b7_10 :
    runs 16 0x1E48 (machine 0xF3 0x8000 [(1, 0x80000000)] []) [0] [] =
      some (0x8002, 0x300000F3, [0x7FFFFFFF], []) := by decide

-- MOV r0, #0, spec/95_test_vectors.md section B7 row 11.
theorem test_thumb_mov_b7_11 :
    runs 16 0x2000 (machine 0x300000F3 0x8000 [(0, 5)] []) [0] [] =
      some (0x8002, 0x700000F3, [0], []) := by decide

-- CMP r0, #255, spec/95_test_vectors.md section B7 row 13.
theorem test_thumb_cmp_b7_13 :
    runs 16 0x28FF (machine 0xF3 0x8000 [(0, 0xFF)] []) [] [] =
      some (0x8002, 0x600000F3, [], []) := by decide

-- ADD r0, #255, spec/95_test_vectors.md section B7 row 14.
theorem test_thumb_add_b7_14 :
    runs 16 0x30FF (machine 0xF3 0x8000 [(0, 0xFFFFFF01)] []) [0] [] =
      some (0x8002, 0x600000F3, [0], []) := by decide

-- SUB r0, #1, spec/95_test_vectors.md section B7 row 15.
theorem test_thumb_sub_b7_15 :
    runs 16 0x3801 (machine 0xF3 0x8000 [(0, 0)] []) [0] [] =
      some (0x8002, 0x800000F3, [0xFFFFFFFF], []) := by decide

-- AND r0, r1, spec/95_test_vectors.md section B7 row 16.
theorem test_thumb_and_b7_16 :
    runs 16 0x4008 (machine 0x300000F3 0x8000 [(0, 0xF0F0F0F0), (1, 0xF0F0F0F)] []) [0] [] =
      some (0x8002, 0x700000F3, [0], []) := by decide

-- EOR r0, r1, spec/95_test_vectors.md section B7 row 17.
theorem test_thumb_eor_b7_17 :
    runs 16 0x4048 (machine 0xF3 0x8000 [(0, 0xFFFFFFFF), (1, 0x7FFFFFFF)] []) [0] [] =
      some (0x8002, 0x800000F3, [0x80000000], []) := by decide

-- LSL r0, r1, spec/95_test_vectors.md section B7 row 19.
theorem test_thumb_lsl_b7_19 :
    runs 16 0x4088 (machine 0x200000F3 0x8000 [(0, 1), (1, 0x100)] []) [0] [] =
      some (0x8002, 0x200000F3, [1], []) := by decide

-- LSR r0, r1, spec/95_test_vectors.md section B7 row 20.
theorem test_thumb_lsr_b7_20 :
    runs 16 0x40C8 (machine 0x200000F3 0x8000 [(0, 0x80000000), (1, 0x21)] []) [0] [] =
      some (0x8002, 0x400000F3, [0], []) := by decide

-- ASR r0, r1, spec/95_test_vectors.md section B7 row 21.
theorem test_thumb_asr_b7_21 :
    runs 16 0x4108 (machine 0xF3 0x8000 [(0, 0x80000000), (1, 0x28)] []) [0] [] =
      some (0x8002, 0xA00000F3, [0xFFFFFFFF], []) := by decide

-- ADC r0, r1, spec/95_test_vectors.md section B7 row 22.
theorem test_thumb_adc_b7_22 :
    runs 16 0x4148 (machine 0x200000F3 0x8000 [(0, 0xFFFFFFFF), (1, 0)] []) [0] [] =
      some (0x8002, 0x600000F3, [0], []) := by decide

-- SBC r0, r1, spec/95_test_vectors.md section B7 row 23.
theorem test_thumb_sbc_b7_23 :
    runs 16 0x4188 (machine 0xF3 0x8000 [(0, 0), (1, 0)] []) [0] [] =
      some (0x8002, 0x800000F3, [0xFFFFFFFF], []) := by decide

-- ROR r0, r1, spec/95_test_vectors.md section B7 row 24.
theorem test_thumb_ror_b7_24 :
    runs 16 0x41C8 (machine 0xF3 0x8000 [(0, 0x80000001), (1, 0x20)] []) [0] [] =
      some (0x8002, 0xA00000F3, [0x80000001], []) := by decide

-- TST r0, r1, spec/95_test_vectors.md section B7 row 26.
theorem test_thumb_tst_b7_26 :
    runs 16 0x4208 (machine 0xF3 0x8000 [(0, 0x80000000), (1, 0x80000000)] []) [] [] =
      some (0x8002, 0x800000F3, [], []) := by decide

-- NEG r0, r1, spec/95_test_vectors.md section B7 row 27.
theorem test_thumb_neg_b7_27 :
    runs 16 0x4248 (machine 0xF3 0x8000 [(1, 0x80000000)] []) [0] [] =
      some (0x8002, 0x900000F3, [0x80000000], []) := by decide

-- CMP r0, r1, spec/95_test_vectors.md section B7 row 29.
theorem test_thumb_cmp_b7_29 :
    runs 16 0x4288 (machine 0xF3 0x8000 [(0, 0x7FFFFFFF), (1, 0xFFFFFFFF)] []) [] [] =
      some (0x8002, 0x900000F3, [], []) := by decide

-- CMN r0, r1, spec/95_test_vectors.md section B7 row 30.
theorem test_thumb_cmn_b7_30 :
    runs 16 0x42C8 (machine 0xF3 0x8000 [(0, 1), (1, 0xFFFFFFFF)] []) [] [] =
      some (0x8002, 0x600000F3, [], []) := by decide

-- ORR r0, r1, spec/95_test_vectors.md section B7 row 31.
theorem test_thumb_orr_b7_31 :
    runs 16 0x4308 (machine 0x800000F3 0x8000 [(0, 0), (1, 0)] []) [0] [] =
      some (0x8002, 0x400000F3, [0], []) := by decide

-- MUL r0, r1, spec/95_test_vectors.md section B7 row 32.
theorem test_thumb_mul_b7_32 :
    runs 16 0x4348 (machine 0x300000F3 0x8000 [(0, 0xFFFFFFFF), (1, 2)] []) [0] [] =
      some (0x8002, 0xB00000F3, [0xFFFFFFFE], []) := by decide

-- BIC r0, r1, spec/95_test_vectors.md section B7 row 33.
theorem test_thumb_bic_b7_33 :
    runs 16 0x4388 (machine 0xF3 0x8000 [(0, 0xFF), (1, 0xF)] []) [0] [] =
      some (0x8002, 0xF3, [0xF0], []) := by decide

-- MVN r0, r1, spec/95_test_vectors.md section B7 row 34.
theorem test_thumb_mvn_b7_34 :
    runs 16 0x43C8 (machine 0xF3 0x8000 [(1, 0)] []) [0] [] =
      some (0x8002, 0x800000F3, [0xFFFFFFFF], []) := by decide

-- ADD r8, r1, spec/95_test_vectors.md section B7 row 35.
theorem test_thumb_add_b7_35 :
    runs 16 0x4488 (machine 0x400000F3 0x8000 [(8, 0x10), (1, 0x20)] []) [8] [] =
      some (0x8002, 0x400000F3, [0x30], []) := by decide

-- ADD pc, r0, spec/95_test_vectors.md section B7 row 37.
theorem test_thumb_add_b7_37 :
    runs 16 0x4487 (machine 0xF3 0x8000 [(0, 0x11)] []) [] [] =
      some (0x8014, 0xF3, [], []) := by decide

-- CMP r8, r1, spec/95_test_vectors.md section B7 row 38.
theorem test_thumb_cmp_b7_38 :
    runs 16 0x4588 (machine 0xF3 0x8000 [(8, 5), (1, 5)] []) [] [] =
      some (0x8002, 0x600000F3, [], []) := by decide

-- MOV r0, r8, spec/95_test_vectors.md section B7 row 39.
theorem test_thumb_mov_b7_39 :
    runs 16 0x4640 (machine 0xF3 0x8000 [(8, 0x80000000)] []) [0] [] =
      some (0x8002, 0xF3, [0x80000000], []) := by decide

-- ADD r0, pc, #4, spec/95_test_vectors.md section B7 row 41.
theorem test_thumb_add_b7_41 :
    runs 16 0xA001 (machine 0xF3 0x8002 [] []) [0] [] =
      some (0x8004, 0xF3, [0x8008], []) := by decide

-- ADD r1, sp, #1020, spec/95_test_vectors.md section B7 row 43.
theorem test_thumb_add_b7_43 :
    runs 16 0xA9FF (machine 0xF3 0x8000 [(13, 0x2000)] []) [1] [] =
      some (0x8002, 0xF3, [0x23FC], []) := by decide

-- ADD sp, #508, spec/95_test_vectors.md section B7 row 44.
theorem test_thumb_add_b7_44 :
    runs 16 0xB07F (machine 0xF3 0x8000 [(13, 0x2000)] []) [13] [] =
      some (0x8002, 0xF3, [0x21FC], []) := by decide

-- SUB sp, #8, spec/95_test_vectors.md section B7 row 45.
theorem test_thumb_sub_b7_45 :
    runs 16 0xB082 (machine 0xF3 0x8000 [(13, 0x2000)] []) [13] [] =
      some (0x8002, 0xF3, [0x1FF8], []) := by decide

-- LDR r0, [r1, #4], spec/95_test_vectors.md section B8 row 1.
theorem test_thumb_ldr_b8_1 :
    runs 16 0x6848 (machine 0xF3 0x8100 [(1, 0x1000)] [(0x1000, 0x11223344), (0x1004, 0x55667788)]) [0, 1] [] =
      some (0x8102, 0xF3, [0x55667788, 0x1000], []) := by decide

-- LDR r0, [r1, r2], spec/95_test_vectors.md section B8 row 2.
theorem test_thumb_ldr_b8_2 :
    runs 16 0x5888 (machine 0xF3 0x8100 [(1, 0x1000), (2, 4)] [(0x1000, 0x11223344), (0x1004, 0x55667788)]) [0, 1, 2] [] =
      some (0x8102, 0xF3, [0x55667788, 0x1000, 4], []) := by decide

-- LDR r0, [r1, #0], spec/95_test_vectors.md section B8 row 3.
theorem test_thumb_ldr_b8_3 : runs 16 0x6808 (machine 0xF3 0x8100 [(1, 0x1002)] []) [] [] = none := by decide

-- LDR r0, [pc, #4], spec/95_test_vectors.md section B8 row 5.
theorem test_thumb_ldr_b8_5 :
    runs 16 0x4801 (machine 0xF3 0x8002 [] [(0x8008, 0xCAFEF00D)]) [0] [] =
      some (0x8004, 0xF3, [0xCAFEF00D], []) := by decide

-- LDR r0, [sp, #8], spec/95_test_vectors.md section B8 row 6.
theorem test_thumb_ldr_b8_6 :
    runs 16 0x9802 (machine 0xF3 0x8100 [(13, 0xFFC)] [(0x1000, 0x11223344), (0x1004, 0x55667788)]) [0, 13] [] =
      some (0x8102, 0xF3, [0x55667788, 0xFFC], []) := by decide

-- STR r0, [r1, #4], spec/95_test_vectors.md section B8 row 7.
theorem test_thumb_str_b8_7 :
    runs 16 0x6048 (machine 0xF3 0x8100 [(0, 0xAABBCCDD), (1, 0x1000)] [(0x1000, 0x11223344), (0x1004, 0x55667788)]) [0, 1] [0x1004] =
      some (0x8102, 0xF3, [0xAABBCCDD, 0x1000], [0xAABBCCDD]) := by decide

-- STR r0, [sp, #4], spec/95_test_vectors.md section B8 row 8.
theorem test_thumb_str_b8_8 :
    runs 16 0x9001 (machine 0xF3 0x8100 [(0, 0xAABBCCDD), (13, 0x1000)] [(0x1000, 0x11223344), (0x1004, 0x55667788)]) [0, 13] [0x1004] =
      some (0x8102, 0xF3, [0xAABBCCDD, 0x1000], [0xAABBCCDD]) := by decide

-- LDRB r0, [r1, #1], spec/95_test_vectors.md section B8 row 9.
theorem test_thumb_ldrb_b8_9 :
    runs 16 0x7848 (machine 0xF3 0x8100 [(1, 0x1000)] [(0x1000, 0x11223344), (0x1004, 0x55667788)]) [0, 1] [] =
      some (0x8102, 0xF3, [0x33, 0x1000], []) := by decide

-- STRB r0, [r1, r2], spec/95_test_vectors.md section B8 row 11.
theorem test_thumb_strb_b8_11 :
    runs 16 0x5488 (machine 0xF3 0x8100 [(0, 0xEE), (1, 0x1000), (2, 2)] [(0x1000, 0x11223344), (0x1004, 0x55667788)]) [0, 1, 2] [0x1000] =
      some (0x8102, 0xF3, [0xEE, 0x1000, 2], [0x11EE3344]) := by decide

-- LDRH r0, [r1, #2], spec/95_test_vectors.md section B8 row 12.
theorem test_thumb_ldrh_b8_12 :
    runs 16 0x8848 (machine 0xF3 0x8100 [(1, 0x1000)] [(0x1000, 0x11223344), (0x1004, 0x55667788)]) [0, 1] [] =
      some (0x8102, 0xF3, [0x1122, 0x1000], []) := by decide

-- STRH r0, [r1, #0], spec/95_test_vectors.md section B8 row 14.
theorem test_thumb_strh_b8_14 :
    runs 16 0x8008 (machine 0xF3 0x8100 [(0, 0xAABBCCDD), (1, 0x1000)] [(0x1000, 0x11223344), (0x1004, 0x55667788)]) [0, 1] [0x1000] =
      some (0x8102, 0xF3, [0xAABBCCDD, 0x1000], [0x1122CCDD]) := by decide

-- LDRSB r0, [r1, r2], spec/95_test_vectors.md section B8 row 16.
theorem test_thumb_ldrsb_b8_16 :
    runs 16 0x5688 (machine 0xF3 0x8100 [(1, 0x1000), (2, 4)] [(0x1000, 0x11223344), (0x1004, 0x55667788)]) [0, 1, 2] [] =
      some (0x8102, 0xF3, [0xFFFFFF88, 0x1000, 4], []) := by decide

-- LDRSH r0, [r1, r2], spec/95_test_vectors.md section B8 row 17.
theorem test_thumb_ldrsh_b8_17 :
    runs 16 0x5E88 (machine 0xF3 0x8100 [(1, 0x1000), (2, 4)] [(0x1004, 0xF234)]) [0, 1, 2] [] =
      some (0x8102, 0xF3, [0xFFFFF234, 0x1000, 4], []) := by decide

-- PUSH r0, r1, lr, spec/95_test_vectors.md section B8 row 18.
theorem test_thumb_push_b8_18 :
    runs 16 0xB503 (machine 0xF3 0x8100 [(0, 1), (1, 2), (13, 0x2000), (14, 0x8005)] []) [0, 1, 13, 14] [0x1FF4, 0x1FF8, 0x1FFC] =
      some (0x8102, 0xF3, [1, 2, 0x1FF4, 0x8005], [1, 2, 0x8005]) := by decide

-- POP r4, pc, spec/95_test_vectors.md section B8 row 20.
theorem test_thumb_pop_b8_20 :
    runs 16 0xBD10 (machine 0xF3 0x8100 [(13, 0x1FF8)] [(0x1FF8, 0x44), (0x1FFC, 0x8004)]) [4, 13] [] =
      some (0x8004, 0xD3, [0x44, 0x2000], []) := by decide

-- LDMIA r0!, r1, r2, spec/95_test_vectors.md section B8 row 22.
theorem test_thumb_ldmia_b8_22 :
    runs 16 0xC806 (machine 0xF3 0x8100 [(0, 0x1000)] [(0x1000, 0x11223344), (0x1004, 0x55667788)]) [0, 1, 2] [] =
      some (0x8102, 0xF3, [0x1008, 0x11223344, 0x55667788], []) := by decide

-- STMIA r0!, r1, r2, spec/95_test_vectors.md section B8 row 24.
theorem test_thumb_stmia_b8_24 :
    runs 16 0xC006 (machine 0xF3 0x8100 [(0, 0x2000), (1, 0xA), (2, 0xB)] []) [0, 1, 2] [0x2000, 0x2004] =
      some (0x8102, 0xF3, [0x2008, 0xA, 0xB], [0xA, 0xB]) := by decide

-- BEQ +4, spec/95_test_vectors.md section B9 row 2.
theorem test_thumb_beq_b9_2 :
    runs 16 0xD000 (machine 0xF3 0x8000 [] []) [] [] =
      some (0x8002, 0xF3, [], []) := by decide

-- BNE -4 (to InstrAddr + 4 - 8), spec/95_test_vectors.md section B9 row 3.
theorem test_thumb_bne_b9_3 :
    runs 16 0xD1FC (machine 0xF3 0x8008 [] []) [] [] =
      some (0x8004, 0xF3, [], []) := by decide

-- B -0x800 (offset_11 = 0x400), spec/95_test_vectors.md section B9 row 5.
theorem test_thumb_b_b9_5 :
    runs 16 0xE400 (machine 0xF3 0x9000 [] []) [] [] =
      some (0x8804, 0xF3, [], []) := by decide

-- BX pc, spec/95_test_vectors.md section B9 row 9.
theorem test_thumb_bx_b9_9 :
    runs 16 0x4778 (machine 0xF3 0x8100 [] []) [] [] =
      some (0x8104, 0xD3, [], []) := by decide

-- BX pc, spec/95_test_vectors.md section B9 row 10.
theorem test_thumb_bx_b9_10 : runs 16 0x4778 (machine 0xF3 0x8102 [] []) [] [] = none := by decide

-- BLX r3, spec/95_test_vectors.md section B9 row 11.
theorem test_thumb_blx_b9_11 :
    runs 16 0x4798 (machine 0xF3 0x8000 [(3, 0x9000), (14, 0)] []) [14] [] =
      some (0x9000, 0xD3, [0x8003], []) := by decide

-- SWI 0x42, spec/95_test_vectors.md section B9 row 17.
theorem test_thumb_swi_b9_17 :
    runs 16 0xDF42 (machine 0x20000030 0x8100 [] []) [14] [] =
      some (8, 0x20000093, [0x8102], []) := by decide

theorem test_thumb_swi_b9_17_saved :
    (match step ((machine 0x20000030 0x8100 [] []).withFetchWord 16 0xDF42) with
      | .next t => (t.spsr .svc).toWord
      | _ => 0) = 0x20000030 := by decide

-- (undefined), spec/95_test_vectors.md section B9 row 18.
theorem test_thumb_undefined_b9_18 :
    runs 16 0xDE00 (machine 0x30 0x8100 [] []) [14] [] =
      some (4, 0x9B, [0x8102], []) := by decide

theorem test_thumb_undefined_b9_18_saved :
    (match step ((machine 0x30 0x8100 [] []).withFetchWord 16 0xDE00) with
      | .next t => (t.spsr .und).toWord
      | _ => 0) = 0x30 := by decide

-- BKPT 0x12, spec/95_test_vectors.md section B9 row 19.
theorem test_thumb_bkpt_b9_19 :
    runs 16 0xBE12 (machine 0x30 0x8100 [] []) [14] [] =
      some (0xC, 0x97, [0x8104], []) := by decide

theorem test_thumb_bkpt_b9_19_saved :
    (match step ((machine 0x30 0x8100 [] []).withFetchWord 16 0xBE12) with
      | .next t => (t.spsr .abt).toWord
      | _ => 0) = 0x30 := by decide

/-! ### Witnesses: a state and operands that meet the hypotheses of each obligation -/

/-- Supervisor mode, ARM state, at 0x8000. -/
def svc (regs : List (Reg × Word)) (mem : List (Nat × Word)) : State := machine 0x000000D3 0x8000 regs mem

/-- User mode, ARM state, at 0x8000. -/
def usr (regs : List (Reg × Word)) (mem : List (Nat × Word)) : State := machine 0x00000010 0x8000 regs mem

/-- An access by the AHB that completes. -/
def plain (s : State) (d : Dir) (size : Nat) (priv : Bool) (a : Word) : Bool :=
  !s.alignFault size a && !s.watched && decide (s.dataPort a = .ahb) &&
    !s.ahbError (s.busKind d a) (s.firstPlace size a) size priv

theorem clean_of_empty {s : State} (h : s.ahbWB = []) (h2 : s.params.tcmErrors = false := by rfl) : s.Clean := by
  refine ⟨fun e he => ?_, fun m e _ => ?_⟩
  · rw [h] at he
    cases he
  · simp [State.tcmWriteError, h2]

theorem answers_of_plain {s : State} {d : Dir} {size : Nat} {priv : Bool} {a : Word}
    (h : plain s d size priv a = true) : s.Answers d size priv a := by
  simp only [plain, Bool.and_eq_true, Bool.not_eq_true', decide_eq_true_eq] at h
  obtain ⟨⟨⟨h1, h2⟩, h3⟩, h4⟩ := h
  refine ⟨h1, h2, ?_⟩
  rw [h3]
  exact h4

theorem answersAll_of_plain {s : State} {d : Dir} {n : Nat} {start : Word}
    (h : s.inside = [] ∧ ∀ j < n, plain s d 4 s.priv (start + BitVec.ofNat 32 (4 * j)) = true) : s.AnswersAll d n start :=
  ⟨h.1, fun j hj => answers_of_plain (h.2 j hj)⟩

theorem ready_of_plain {s : State} {d : Dir} {size : Nat} {priv : Bool} {a : Word} (h1 : s.ahbWB = [])
    (h2 : plain s d size priv a = true) (h3 : size = 2 → misaligned 2 a = false) (h4 : s.params.tcmErrors = false := by rfl) :
    s.Clean ∧ s.Answers d size priv a ∧ (size = 2 → misaligned 2 a = false) :=
  ⟨clean_of_empty h1 h4, answers_of_plain h2, h3⟩

theorem witness_EveryInstructionSurvivesEncoding :
    (Instr.ldrImm .al true false true 1 0 4).encodable = true ∧ (Instr.strReg .al false true false 1 0 0 .lsl 2).encodable = true ∧
    (Instr.mcr .al 0 7 0 13 4 10).encodable = true ∧ (Instr.tBCond .le 0xFC).encodable = true := by decide

theorem witness_EveryDecodedCodeIsItsEncoding :
    (∃ i, decode (.arm 0xE5310004) = .ok i) ∧ ∃ i, decode (.thumb 0xB510) = .ok i := ⟨⟨_, rfl⟩, ⟨_, rfl⟩⟩

/-- What the step finds, as StepRunsTheDecodedInstruction and its neighbours assume it. -/
def finds (s : State) (p : Fetched → State → Bool) : Bool :=
  decide (s.forbidden = none ∧ s.agenda = [] ∧ s.unrecoverable = false ∧ s.dbg.halted = false ∧ s.debugRequest = false ∧
    s.pins.fifofull = false ∧ s.etmRun = none ∧ s.standby = false ∧ s.pastTop = false ∧ s.takesFiq = false ∧
    s.takesIrq = false ∧ s.dbg.wptLatch = false) && !s.staleRoute &&
  match s.coreFetch with
  | .ok f s1 => p f s1
  | _ => false

theorem of_finds {s : State} {p : Fetched → State → Bool} (h : finds s p = true) :
    s.Undisturbed ∧ s.staleRoute = false ∧ ∃ f s1, s.coreFetch = .ok f s1 ∧ p f s1 = true := by
  simp only [finds, Bool.and_eq_true, decide_eq_true_eq, Bool.not_eq_true'] at h
  refine ⟨h.1.1, h.1.2, ?_⟩
  revert h
  cases s.coreFetch with
  | ok f s1 => exact fun h => ⟨f, s1, rfl, h.2⟩
  | _ => intro h; cases h.2

theorem witness_UnallocatedCodeIsRefused :
    (let s := (svc [] []).withFetchWord 32 0xE1900F9F
     s.Undisturbed ∧ s.staleRoute = false ∧ ∃ f s1, s.coreFetch = .ok f s1 ∧
      decide (f.err = false ∧ s1.breakHit f = false ∧ decode (s1.code f.bits) = .error (.unallocatedArm 0xE1900F9F) ∧
        s.cpsr.t = false ∧ Cond.bits .al = f.bits.extractLsb' 28 4 ∧ s.cpsr.passes .al = true) = true) ∧
    (let s := (svc [] []).withFetchWord 32 0x01900F9F
     s.Undisturbed ∧ s.staleRoute = false ∧ ∃ f s1, s.coreFetch = .ok f s1 ∧
      decide (f.err = false ∧ s1.breakHit f = false ∧ decode (s1.code f.bits) = .error (.unallocatedArm 0x01900F9F) ∧
        Cond.bits .eq = f.bits.extractLsb' 28 4 ∧ ¬ f.bits &&& 0x0FF000F0 = 0x01200070 ∧
        s.cpsr.passes .eq = false) = true) ∧
    (let s := (svc [] []).withFetchWord 32 0xF1000000
     s.Undisturbed ∧ s.staleRoute = false ∧ ∃ f s1, s.coreFetch = .ok f s1 ∧
      decide (f.err = false ∧ s1.breakHit f = false ∧ decode (s1.code f.bits) = .error (.unallocatedArm 0xF1000000) ∧
        f.bits.extractLsb' 28 4 = 0b1111#4) = true) ∧
    (let s := (svc [] []).withFetchWord 16 0xB100
     s.Undisturbed ∧ s.staleRoute = false ∧ ∃ f s1, s.coreFetch = .ok f s1 ∧
      decide (f.err = false ∧ s1.breakHit f = false ∧ decode (s1.code f.bits) = .error (.unallocatedThumb 0xB100) ∧
        s.cpsr.t = true) = true) ∧
    (let s := (svc [] []).withFetchWord 32 0x01200070
     s.Undisturbed ∧ s.staleRoute = false ∧ ∃ f s1, s.coreFetch = .ok f s1 ∧
      decide (f.err = false ∧ s1.breakHit f = false ∧ decode (s1.code f.bits) = .error (.unallocatedArm 0x01200070) ∧
        s.cpsr.t = false ∧ f.bits &&& 0x0FF000F0 = 0x01200070) = true) :=
  ⟨of_finds (by decide), of_finds (by decide), of_finds (by decide), of_finds (by decide), of_finds (by decide)⟩

theorem witness_StepRunsTheDecodedInstruction :
    let s := (svc [] []).withFetchWord 32 0xE20100FF
    s.Undisturbed ∧ s.staleRoute = false ∧ ∃ f s1, s.coreFetch = .ok f s1 ∧
      decide (f.err = false ∧ s1.breakHit f = false ∧ decode (s1.code f.bits) = .ok (.andImm .al false 1 0 0 0xFF) ∧
        s1.bankedUse (.andImm .al false 1 0 0 0xFF) = false) = true := of_finds (by decide)

/-- The ITCM enabled, with one word at offset 0x3FFC. -/
def withItcm (pc : Word) : State :=
  { svc [] [] with pc := pc, ctl := { Control.reset Params.atReset with i := true },
                   itcm := [(0x3FFC, 0), (0x3FFD, 0), (0x3FFE, 0xA0), (0x3FFF, 0xE1)] }

theorem witness_FetchReadsTheBytesAtThePc :
    (let s := withItcm 0x003FFFFC
     s.pipe = [] ∧ s.ipb = [] ∧ s.pc.toNat % s.instrLen = 0 ∧ s.ahbWB = [] ∧ s.ctl.i = true ∧ s.pc.toNat < 0x400000 ∧
      s.tcmSize .itcm ≠ 0 ∧ s.params.tcmErrors = false ∧
      ∀ k ∈ span (lane s.ctl.b s.instrLen (s.tcmOffset .itcm s.pc.toNat)) s.instrLen, s.itcmUnwritten k = false) ∧
    (let s := withItcm 0x00400000
     s.pipe = [] ∧ s.ipb = [] ∧ s.pc.toNat % s.instrLen = 0 ∧ s.ahbWB = [] ∧ ¬s.pc.toNat < 0x400000 ∧
      s.ahbError .fetch (s.pc.toNat / 4 * 4) 4 s.priv = false) := by decide

/-- Both interrupt pins, as given. -/
def withPins (fiq irq : Bool) (s : State) : State := { s with pins := { s.pins with fiq := fiq, irq := irq } }

/-- Nothing stands before an interrupt. -/
def interruptible (s : State) : Bool :=
  decide (s.forbidden = none ∧ s.agenda = [] ∧ s.unrecoverable = false ∧ s.dbg.halted = false ∧ s.debugRequest = false ∧
    s.pins.fifofull = false ∧ s.pastTop = false ∧ s.dbg.wptLatch = false)

theorem witness_InterruptsAreTakenByPriority :
    (let s := withPins true true (usr [] []); interruptible s = true ∧ s.pins.fiq = true ∧ s.cpsr.f = false) ∧
    (let s := withPins false true (usr [] [])
     interruptible s = true ∧ s.pins.irq = true ∧ s.cpsr.i = false ∧ s.pins.fiq = false) ∧
    (let s := withPins true true (machine 0x00000052 0x8000 [] [])
     interruptible s = true ∧ s.pins.irq = true ∧ s.cpsr.i = false ∧ s.cpsr.f = true) := by decide

/-- The full debug configuration with DBGEN HIGH. -/
def debugged (monitor : Bool) (s : State) : State :=
  { s with params := { Params.atReset with dbgen := true, fullDebug := true }, dbg := { s.dbg with monitor := monitor } }

theorem witness_MarkedInstructionIsNotExecuted :
    (let s := { svc [] [] with ahbErrors := [{ base := 0x8000, size := 4, kinds := [.fetch], userOnly := false }] }
     s.Undisturbed ∧ s.staleRoute = false ∧ ∃ f s1, s.coreFetch = .ok f s1 ∧ f.err = true) ∧
    (let s := debugged false (svc [] [])
     let s := { s with dbg := { s.dbg with bkptMatch := true } }
     s.Undisturbed ∧ s.staleRoute = false ∧ ∃ f s1, s.coreFetch = .ok f s1 ∧
      decide (f.err = false ∧ s.params.dbgen = true ∧ s.params.fullDebug = true ∧ s.dbg.bkptMatch = true ∧
        s.dbg.monitor = false) = true) ∧
    (let s := debugged true (svc [] [])
     let s := { s with dbg := { s.dbg with bkptMatch := true } }
     s.Undisturbed ∧ s.staleRoute = false ∧ ∃ f s1, s.coreFetch = .ok f s1 ∧
      decide (f.err = false ∧ f.bkpt = false ∧ s.dbg.bkptMatch = true ∧ s.dbg.monitor = true) = true) ∧
    (let s := debugged true (svc [] [])
     let s := { s with pipe := [{ addr := 0x8000, word := 0, lo := true, hi := true, err := false, bkpt := true, itcm := false,
                                  drained := false, old := false }] }
     s.Undisturbed ∧ s.staleRoute = false ∧ ∃ f s1, s.coreFetch = .ok f s1 ∧
      decide (f.err = false ∧ f.bkpt = true ∧ s.dbg.monitor = true) = true) :=
  ⟨of_finds (p := fun f _ => f.err) (by decide), of_finds (by decide), of_finds (by decide), of_finds (by decide)⟩

theorem witness_FailedConditionOnlyAdvances :
    (svc [] []).cpsr.passes (accessed (svc [] []).cpsr.m (.addImm .eq false 1 0 0 1)).1 = false := by decide

theorem witness_UnpredictableOperandsAreRefused :
    (Instr.mul .al false 3 0 2 3).check = some .destIsRm ∧ (svc [] []).priv = true ∧
    (svc [] []).cpsr.passes (accessed (svc [] []).cpsr.m (.mul .al false 3 0 2 3)).1 = true := by decide

theorem witness_BankedRegisterHazardIsRefused :
    (let s := { (svc [] []).withFetchWord 32 0xE1A0000D with bankHazard := true }
     s.Undisturbed ∧ s.staleRoute = false ∧ ∃ f s1, s.coreFetch = .ok f s1 ∧
      decide (f.err = false ∧ s1.breakHit f = false ∧
        decode (s1.code f.bits) = .ok (.movShImm .al false 0 0 0 .lsl 13) ∧
        (accessed s.cpsr.m (.movShImm .al false 0 0 0 .lsl 13)).2.any (isBanked s.cpsr.m) = true) = true) ∧
    (let s := { (svc [] []).withFetchWord 32 0xE1A00001 with bankHazard := true }
     s.Undisturbed ∧ s.staleRoute = false ∧ ∃ f s1, s.coreFetch = .ok f s1 ∧
      decide (f.err = false ∧ s1.breakHit f = false ∧
        decode (s1.code f.bits) = .ok (.movShImm .al false 0 0 0 .lsl 1) ∧
        (accessed s.cpsr.m (.movShImm .al false 0 0 0 .lsl 1)).2.any (isBanked s.cpsr.m) = false) = true) ∧
    (let s := { (machine 0xD7 0x8000 [] []).withFetchWord 32 0xE1200070 with bankHazard := true }
     let s := { s with params := { s.params with dbgen := true }, dbg := { s.dbg with takesBkpt := true } }
     s.Undisturbed ∧ s.staleRoute = false ∧ ∃ f s1, s.coreFetch = .ok f s1 ∧
      decide (f.err = false ∧ s1.breakHit f = false ∧ decode (s1.code f.bits) = .ok (.bkpt 0 0) ∧
        (accessed s.cpsr.m (.bkpt 0 0)).2.any (isBanked s.cpsr.m) = true ∧ s.params.dbgen = true ∧ s.dbg.monitor = false ∧
        s.dbg.takesBkpt = true) = true) :=
  ⟨of_finds (by decide), of_finds (by decide), of_finds (by decide)⟩

theorem witness_ShifterOperandsBitByBit : (1 : BitVec 5) ≠ 0 ∧ (31 : BitVec 5) ≠ 0 ∧ 0 < 32 ∧ 0 < 255 := by decide

theorem witness_DataProcessing :
    DpOp.eor ∈ [DpOp.and, .eor, .orr, .bic, .mov, .mvn] ∧ DpOp.rsc ∈ [DpOp.add, .adc, .sub, .sbc, .rsb, .rsc] ∧
    DpOp.cmn ∈ [DpOp.tst, .teq, .cmp, .cmn] ∧ (svc [] []).cpsr.passes .al = true ∧ (14 : Reg) ≠ 15 ∧
    (Operand2.imm 4 0xFF).Allows [1, 14] ∧ (Operand2.shImm 0 .ror 15).Allows [15, 14] ∧
    (Operand2.shReg 2 .asr 14).Allows [0, 14] :=
  ⟨by decide, by decide, by decide, by decide, by decide, trivial, trivial, by decide, by decide, by decide⟩

theorem witness_DataProcessingToPcBranches :
    DpOp.add ∉ [DpOp.tst, .teq, .cmp, .cmn] ∧ (svc [(1, 0x9000)] []).cpsr.passes .al = true ∧
    (DpOp.add.instr .al false 1 15 (.imm 0 2)).check = none ∧
    (DpOp.add.result ((svc [(1, 0x9000)] []).reg 1) ((Operand2.imm 0 0).eval (svc [] [])).value false).toNat % 4 = 0 ∧
    (DpOp.add.result ((svc [(1, 0x9000)] []).reg 1) ((Operand2.imm 0 2).eval (svc [] [])).value false).toNat % 4 ≠ 0 := by
  decide

theorem witness_DataProcessingToPcReturns :
    (DpOp.sub.instr .al true 14 15 (.imm 0 4)).check = none ∧ excMode (usr [] []).cpsr.m = none ∧
    excMode (svc [] []).cpsr.m = some .svc ∧
    (let s := (svc [(14, 0x8008)] []).setSpsr .svc (Psr.ofWord 0x00000030)
     legalMode (s.spsr .svc).m = true ∧ (s.spsr .svc).t = true) ∧
    (let s := (svc [(14, 0x8008)] []).setSpsr .svc (Psr.ofWord 0x00000010)
     legalMode (s.spsr .svc).m = true ∧ (s.spsr .svc).t = false ∧
     (DpOp.sub.result (s.reg 14) ((Operand2.imm 0 4).eval s).value s.cpsr.c).toNat % 4 = 0 ∧
     (DpOp.sub.result (s.reg 14) ((Operand2.imm 0 2).eval s).value s.cpsr.c).toNat % 4 ≠ 0) := by decide

theorem witness_Multiplies :
    (svc [] []).cpsr.passes .al = true ∧ (Instr.mul .al true 0 0 2 1).check = none ∧
    (Instr.mla .al true 0 3 2 1).check = none ∧ (Instr.umull .al true 0 3 2 1).check = none ∧
    (Instr.umlal .al true 0 3 2 1).check = none ∧ (Instr.smull .al true 0 3 2 1).check = none ∧
    (Instr.smlal .al true 0 3 2 1).check = none ∧ (Instr.smulXY .al 1 0 1 true false 1).check = none ∧
    (Instr.smulwY .al 1 0 1 true 1).check = none ∧ (Instr.smlaXY .al 1 1 1 true false 1).check = none ∧
    (Instr.smlawY .al 1 1 1 true 1).check = none ∧ (Instr.smlalXY .al 1 0 1 true false 1).check = none := by decide

/-- ClzCountsLeadingZeros, SaturatingArithmeticClamps, BranchesReachTheirTarget: a condition that passes, no r15. -/
theorem witness_PassedConditions :
    (svc [] []).cpsr.passes .al = true ∧ (svc [] []).cpsr.passes .ne = true ∧ (0 : Reg) ≠ 15 ∧ (14 : Reg) ≠ 15 := by decide

theorem witness_ExchangesSelectTheState :
    (svc [] []).cpsr.passes .al = true ∧ (0x9001 : Word).getLsbD 0 = true ∧ (svc [(1, 0x9001)] []).reg 1 = 0x9001 ∧
    (0x9000 : Word).toNat % 4 = 0 ∧ (svc [(1, 0x9000)] []).reg 1 = 0x9000 ∧ (0x9002 : Word).toNat % 4 = 2 ∧
    (svc [(1, 0x9002)] []).reg 1 = 0x9002 ∧ hiReg true 6 ≠ 15 ∧ hiReg false 7 ≠ 15 := by decide

theorem witness_MrsReadsStatus :
    (svc [] []).cpsr.passes .al = true ∧ excMode (svc [] []).cpsr.m = some .svc ∧ excMode (usr [] []).cpsr.m = none ∧
    excMode (machine 0x0000001F 0x8000 [] []).cpsr.m = none := by decide

theorem witness_MsrWritesTheMaskedFields :
    (usr [] []).cpsr.m = modeUser ∧ (svc [] []).cpsr.m ≠ modeUser ∧ (0x20 : Word).getLsbD 5 = true ∧
    (0x1F : Word).getLsbD 5 = false ∧
    legalMode (Psr.ofWord (((svc [] []).cpsr.toWord &&& ~~~0xDF#32) ||| (0x1F &&& 0xDF))).m = true ∧
    legalMode (Psr.ofWord (((svc [] []).cpsr.toWord &&& ~~~0xDF#32) ||| (0x14 &&& 0xDF))).m = false ∧
    excMode (usr [] []).cpsr.m = none ∧ excMode (svc [] []).cpsr.m = some .svc ∧
    (svc [(1, 0x1F)] []).reg 1 = 0x1F ∧ ((0x1F : BitVec 8).setWidth 32).rotateRight (2 * (0 : BitVec 4).toNat) = 0x1F#32 := by
  decide

theorem witness_TrapsTakeTheirException :
    (svc [] []).cpsr.passes .al = true ∧ (1 : BitVec 4) ≠ 14 ∧ (1 : BitVec 4) ≠ 15 ∧ (svc [] []).params.dbgen = false ∧
    (let s := { svc [] [] with params := { Params.atReset with dbgen := true },
                               dbg := { (svc [] []).dbg with takesBkpt := true } }
     s.params.dbgen = true ∧ s.dbg.monitor = false ∧ s.dbg.takesBkpt = true) := by decide

/-- The state of the load and store witnesses: r1 and r2 address words that memory holds. -/
def mem1 : State := svc [(1, 0x1000), (2, 4), (13, 0x1008)] [(0x1000, 0x11223344), (0x1004, 0x55667788)]

theorem witness_SingleLoadsBringMemory :
    mem1.cpsr.passes .al = true ∧ (Instr.ldrImm .al true true true 1 0 1).check = none ∧
    (Instr.ldrReg .al false true false 1 0 0 .lsl 2).check = none ∧ (Instr.ldrbImm .al true true false 1 0 3).check = none ∧
    (Instr.ldrhReg .al true true false 1 0 0 2).check = none ∧ (Instr.ldrshImm .al true true true 1 0 0 2).check = none ∧
    mem1.LoadReady 4 mem1.priv (mem1.mode2Imm true true true 1 1).addr ∧
    mem1.LoadReady 4 mem1.priv (mem1.mode2Reg false true false 1 0 .lsl 2).addr ∧
    mem1.LoadReady 1 mem1.priv (mem1.mode2Imm true true false 1 3).addr ∧
    mem1.LoadReady 2 mem1.priv (mem1.mode3Reg true true false 1 2).addr ∧
    mem1.LoadReady 2 mem1.priv (mem1.mode3Imm true true true 1 0 2).addr ∧ mem1.ctl.a = false ∧
    (Instr.ldrhImm .al true true false 1 0 0 1).check = none ∧ (mem1.mode3Imm true true false 1 0 1).addr.toNat % 2 = 1 ∧
    (Instr.ldrshReg .al true true false 1 0 0 2).check = none ∧
    ((mem1.setReg 2 3).mode3Reg true true false 1 2).addr.toNat % 2 = 1 :=
  ⟨by decide, by decide, by decide, by decide, by decide, by decide, ready_of_plain rfl (by decide) (by decide),
    ready_of_plain rfl (by decide) (by decide), ready_of_plain rfl (by decide) (by decide),
    ready_of_plain rfl (by decide) (by decide), ready_of_plain rfl (by decide) (by decide), by decide, by decide, by decide,
    by decide, by decide⟩

theorem witness_SingleStoresWriteTheirBytes :
    mem1.cpsr.passes .al = true ∧ (Instr.strImm .al true true false 1 15 2).check = none ∧
    (Instr.strbReg .al false true false 1 0 0 .lsl 2).check = none ∧ (Instr.strhImm .al true true true 1 0 0 2).check = none ∧
    mem1.StoreReady 4 mem1.priv (mem1.mode2Imm true true false 1 2).addr ∧
    mem1.StoreReady 1 mem1.priv (mem1.mode2Reg false true false 1 0 .lsl 2).addr ∧
    mem1.StoreReady 2 mem1.priv (mem1.mode3Imm true true true 1 0 2).addr ∧ mem1.ctl.a = false ∧
    (Instr.strhImm .al true true false 1 0 0 1).check = none ∧ (mem1.mode3Imm true true false 1 0 1).addr.toNat % 2 = 1 :=
  ⟨by decide, by decide, by decide, by decide, ready_of_plain rfl (by decide) (by decide),
    ready_of_plain rfl (by decide) (by decide), ready_of_plain rfl (by decide) (by decide), by decide, by decide, by decide⟩

theorem witness_UserTransfersAccessAsUser :
    mem1.cpsr.passes .al = true ∧ (Instr.ldrtImm .al true 1 0 4).check = none ∧
    (Instr.ldrbtReg .al false 1 0 0 .lsl 2).check = none ∧ (Instr.strtReg .al true 1 0 0 .lsl 2).check = none ∧
    (Instr.strbtImm .al true 1 0 4).check = none ∧
    mem1.LoadReady 4 false (mem1.mode2Imm false true true 1 4).addr ∧
    mem1.LoadReady 1 false (mem1.mode2Reg false false true 1 0 .lsl 2).addr ∧
    mem1.StoreReady 4 false (mem1.mode2Reg false true true 1 0 .lsl 2).addr ∧
    mem1.StoreReady 1 false (mem1.mode2Imm false true true 1 4).addr :=
  ⟨by decide, by decide, by decide, by decide, by decide, ready_of_plain rfl (by decide) (by decide),
    ready_of_plain rfl (by decide) (by decide), ready_of_plain rfl (by decide) (by decide),
    ready_of_plain rfl (by decide) (by decide)⟩

/-- An AHB error for User accesses only, at the word of 0x1000. -/
def userFailing : State :=
  { mem1 with ahbErrors := [{ base := 0x1000, size := 4, kinds := [.read, .write], userOnly := true }] }

theorem witness_UserAccessIsRefused :
    (userFailing.dbg.halted = false ∧ userFailing.dbg.wptLatch = false ∧ userFailing.watched = false ∧
      userFailing.ahbWB = []) ∧ userFailing.priv = true ∧ (0 : Reg) ≠ 15 ∧
    (let a := (userFailing.mode2Imm false true true 1 4).addr
     a.toNat % 4 = 0 ∧ userFailing.dataPort a = .ahb ∧ userFailing.busKind .write a ≠ .buffered ∧
      userFailing.ahbError (userFailing.busKind .read a) (userFailing.firstPlace 4 a) 4 false = true ∧
      userFailing.ahbError (userFailing.busKind .write a) (userFailing.firstPlace 4 a) 4 false = true ∧
      plain userFailing .read 4 true a = true ∧ plain userFailing .write 4 true a = true) ∧
    (Instr.ldrtImm .al true 1 0 4).check = none ∧ (Instr.ldrImm .al false true false 1 0 4).check = none ∧
    (Instr.strtImm .al true 1 0 4).check = none ∧ (Instr.strImm .al false true false 1 0 4).check = none := by decide

/-- A word at 0x1000, and the LT bit. -/
def loadsPc (lt : Bool) (v : Word) : State := withControl lt false false (svc [(1, 0x1000), (13, 0x1000)] [(0x1000, v)])

theorem witness_MisalignedLoadOfThePc :
    (loadsPc true 0x9003).cpsr.passes .al = true ∧ (loadsPc true 0x9003).cpsr.t = false ∧
    (Instr.ldrImm .al true true false 1 15 2).check = none ∧
    ((loadsPc true 0x9003).mode2Imm true true false 1 2).addr.toNat % 4 ≠ 0 ∧ (loadsPc true 0x9003).ctl.a = false := by decide

theorem witness_LoadsOfThePcBranch :
    (Instr.ldrImm .al true true false 1 15 0).check = none ∧
    (let s := loadsPc true 0x9003
     s.cpsr.passes .al = true ∧ s.cpsr.t = false ∧ (s.mode2Imm true true false 1 0).addr.toNat % 4 = 0 ∧ s.ctl.lt = true ∧
      s.LoadReady 4 s.priv (s.mode2Imm true true false 1 0).addr) ∧
    (let s := loadsPc false 0x9003
     s.ctl.lt = false ∧ (s.valueAt 4 0x1000).getLsbD 0 = true ∧ s.LoadReady 4 s.priv (s.mode2Imm true true false 1 0).addr) ∧
    (let s := loadsPc false 0x9004
     s.ctl.lt = false ∧ (s.valueAt 4 0x1000).toNat % 4 = 0 ∧ s.LoadReady 4 s.priv (s.mode2Imm true true false 1 0).addr) ∧
    (let s := loadsPc false 0x9002
     s.ctl.lt = false ∧ (s.valueAt 4 0x1000).toNat % 4 = 2 ∧ s.LoadReady 4 s.priv (s.mode2Imm true true false 1 0).addr) :=
  ⟨by decide, ⟨by decide, by decide, by decide, by decide, ready_of_plain rfl (by decide) (by decide)⟩,
    ⟨by decide, by decide, ready_of_plain rfl (by decide) (by decide)⟩,
    ⟨by decide, by decide, ready_of_plain rfl (by decide) (by decide)⟩,
    ⟨by decide, by decide, ready_of_plain rfl (by decide) (by decide)⟩⟩

theorem witness_DoublewordTransfersTwoWords :
    mem1.cpsr.passes .al = true ∧ (Instr.ldrdImm .al true true false 1 2 0 0).check = none ∧
    (Instr.strdReg .al true true false 1 12 0 2).check = none ∧
    (mem1.mode3Imm true true false 1 0 0).addr.toNat % 8 = 0 ∧ mem1.Clean ∧
    mem1.AnswersAll .read 2 (mem1.mode3Imm true true false 1 0 0).addr ∧
    mem1.AnswersAll .write 2 (mem1.mode3Imm true true false 1 0 0).addr ∧
    (mem1.mode3Reg true true false 1 2).addr.toNat % 8 ≠ 0 ∧ mem1.ctl.a = false :=
  ⟨by decide, by decide, by decide, by decide, clean_of_empty rfl, answersAll_of_plain (by decide),
    answersAll_of_plain (by decide), by decide, by decide⟩

theorem witness_LoadMultipleFillsTheList :
    (let s := svc [(0, 0x1000)] [(0x1000, 1), (0x1004, 2), (0x1008, 3)]
     s.cpsr.passes .al = true ∧ (Instr.ldm1 .al false true true 0 (0#1 ++ 0x000E#15)).check = none ∧ s.Clean ∧
      s.AnswersAll .read (listed (0#1 ++ 0x000E#15)).length (multiStart false true 3 (s.reg 0)) ∧
      (Instr.ldm2 .al false true 0 0 0x6000).check = none ∧ (excMode s.cpsr.m).isSome = true) ∧
    excMode (usr [] []).cpsr.m = none :=
  ⟨⟨by decide, by decide, clean_of_empty rfl, answersAll_of_plain (by decide), by decide, by decide⟩, by decide⟩

theorem witness_LoadMultipleOfThePcBranches :
    (Instr.ldm1 .al false true true 1 (1#1 ++ 0x0001#15)).check = none ∧ (Instr.tPop true 0).check = none ∧
    (Instr.ldm3 .al false true true 1 0x0001).check = none ∧
    (let s := loadsPc true 0x9003
     s.cpsr.passes .al = true ∧ s.Clean ∧ s.AnswersAll .read 1 (multiStart false true 1 (s.reg 13)) ∧ s.ctl.lt = true) ∧
    (let s := loadsPc false 0x9003
     s.AnswersAll .read 1 (multiStart false true 1 (s.reg 13)) ∧ s.ctl.lt = false ∧ (s.valueAt 4 0x1000).getLsbD 0 = true) ∧
    (let s := loadsPc false 0x9004
     s.AnswersAll .read 2 (multiStart true false 2 (s.reg 1)) ∧ s.ctl.lt = false ∧ (s.valueAt 4 0x1000).toNat % 4 = 0) ∧
    (loadsPc false 0x9002).ctl.lt = false ∧ ((loadsPc false 0x9002).valueAt 4 0x1000).toNat % 4 = 2 ∧
    excMode (usr [] []).cpsr.m = none ∧
    (let s := (loadsPc false 0x9002).setSpsr .svc (Psr.ofWord 0x00000030)
     excMode s.cpsr.m = some .svc ∧ legalMode (s.spsr .svc).m = true ∧ (s.spsr .svc).t = true) ∧
    (let s := (loadsPc false 0x9002).setSpsr .svc (Psr.ofWord 0x00000010)
     legalMode (s.spsr .svc).m = true ∧ (s.spsr .svc).t = false ∧ (s.valueAt 4 0x1000).toNat % 4 ≠ 0) :=
  ⟨by decide, by decide, by decide, ⟨by decide, clean_of_empty rfl, answersAll_of_plain (by decide), by decide⟩,
    ⟨answersAll_of_plain (by decide), by decide, by decide⟩, ⟨answersAll_of_plain (by decide), by decide, by decide⟩,
    by decide, by decide, by decide, by decide, by decide⟩

theorem witness_StoreMultipleWritesTheList :
    (let s := svc [(0, 0x2000)] []
     s.cpsr.passes .al = true ∧ (Instr.stm1 .al false true true 0 0x8003).check = none ∧ s.Clean ∧
      s.AnswersAll .write (listed 0x8003).length (multiStart false true 3 (s.reg 0)) ∧ isLowest 0x8003 0 = true ∧
      (15 : Reg) ≠ 0 ∧ (Instr.stm2 .al false true 0 0 0x6000).check = none ∧ (excMode s.cpsr.m).isSome = true) ∧
    excMode (usr [] []).cpsr.m = none :=
  ⟨⟨by decide, by decide, clean_of_empty rfl, answersAll_of_plain (by decide), by decide, by decide, by decide, by decide⟩,
    by decide⟩

theorem witness_SwapsExchangeMemory :
    let s := svc [(1, 0xAABBCCDD), (2, 0x1001)] [(0x1000, 0x11223344)]
    s.cpsr.passes .al = true ∧ s.Clean ∧ (Instr.swp .al 2 0 0 1).check = none ∧ (Instr.swpb .al 2 1 0 1).check = none ∧
    s.inside = [] ∧ s.Answers .swapRead 4 s.priv (s.reg 2) ∧ s.Answers .swapWrite 4 s.priv (s.reg 2) ∧
    s.Answers .swapRead 1 s.priv (s.reg 2) ∧ s.Answers .swapWrite 1 s.priv (s.reg 2) :=
  ⟨by decide, clean_of_empty rfl, by decide, by decide, rfl, answers_of_plain (by decide), answers_of_plain (by decide),
    answers_of_plain (by decide), answers_of_plain (by decide)⟩

/-- AHB errors on transfers of one kind at the word of 0x1004. -/
def failing (k : AhbKind) : State :=
  { svc [(1, 0x1004), (2, 0x1000)] [] with ahbErrors := [{ base := 0x1004, size := 4, kinds := [k], userOnly := false }] }

theorem quiet_of_empty {s : State} (h : s.dbg.halted = false ∧ s.dbg.wptLatch = false ∧ s.watched = false)
    (hw : s.ahbWB = []) (he : s.params.tcmErrors = false := by rfl) : s.Quiet := ⟨h.1, h.2.1, h.2.2, clean_of_empty hw he⟩

theorem witness_AbortedAccessKeepsBaseAndDestination :
    (failing .read).Quiet ∧ (withControl false false true (svc [(1, 0x1002)] [])).Quiet ∧
    (let s := withControl false false true (svc [(1, 0x1002)] [])
     let x : Access := ⟨.read, 4, true, 0x1002⟩
     let i := Instr.ldrImm .al false true false 1 0 4
     s.access i = some x ∧ i.check = none ∧ s.cpsr.passes (accessed s.cpsr.m i).1 = true ∧
      s.alignFault x.size x.addr = true) ∧
    (let s := failing .read
     let x : Access := ⟨.read, 4, true, 0x1004⟩
     s.access (.ldrImm .al false true false 1 0 4) = some x ∧ misaligned x.size x.addr = false ∧
      (s.dataPort x.addr = .ahb ∧ s.busKind x.kind x.addr ≠ .buffered ∧
        s.ahbError (s.busKind x.kind x.addr) (s.firstPlace x.size x.addr) x.size x.priv = true)) ∧
    (let s := failing .write
     let x : Access := ⟨.write, 1, true, 0x1004⟩
     s.access (.strbImm .al false true false 1 0 4) = some x ∧ misaligned x.size x.addr = false ∧
      (s.dataPort x.addr = .ahb ∧ s.busKind x.kind x.addr ≠ .buffered ∧
        s.ahbError (s.busKind x.kind x.addr) (s.firstPlace x.size x.addr) x.size x.priv = true)) := by
  refine ⟨quiet_of_empty (by decide) rfl, quiet_of_empty (by decide) rfl, ?_⟩
  decide

theorem witness_AbortedTransfers :
    (let s := withControl false false true (svc [(1, 0x1002)] [])
     ([.ldrdImm .al true true false 1 4 0 0, .ldm1 .al false true true 1 0x0010, .ldm2 .al false true 0 1 0x2000,
       .ldm3 .al false true true 1 0x0010, .stm1 .al false true true 1 0x0010, .stm2 .al false true 0 1 0x2000,
       .strdImm .al true true false 1 4 0 0, .tStmia 1 0x10, .tLdmia 1 0x10] : List Instr).all (fun i =>
        decide (i.check = none) && ((s.transfer i).map fun x => s.alignFault x.align x.addr) == some true) = true) ∧
    (let s := withControl false false true (machine 0x000000F3 0x8000 [(13, 0x1002)] [])
     ([.tPush true 0x10, .tPop true 0x10] : List Instr).all (fun i =>
        decide (i.check = none) && ((s.transfer i).map fun x => s.alignFault x.align x.addr) == some true) = true) ∧
    (let s := failing .read
     let x : Transfer := { kind := .read, addr := 0x1000, count := 2, align := 8, lost := [.r4, .r5] }
     s.transfer (.ldrdImm .al true true false 2 4 0 0) = some x ∧ s.inside = [] ∧ s.alignFault x.align x.addr = false ∧
      x.addr.toNat % 8 = 0 ∧ (∀ j < x.count, s.dataPort (x.word j) = .ahb) ∧
      (s.dataPort (x.word 1) = .ahb ∧ s.busKind .read (x.word 1) ≠ .buffered ∧
        s.ahbError (s.busKind .read (x.word 1)) (s.firstPlace 4 (x.word 1)) 4 s.priv = true)) ∧
    (let s := failing .write
     let x : Transfer := { kind := .write, addr := 0x1000, count := 2, align := 4, lost := [] }
     s.transfer (.stm1 .al false true true 2 0x0011) = some x ∧ (∀ j < x.count, s.dataPort (x.word j) = .ahb) ∧
      (s.dataPort (x.word 1) = .ahb ∧ s.busKind .write (x.word 1) ≠ .buffered ∧
        s.ahbError (s.busKind .write (x.word 1)) (s.firstPlace 4 (x.word 1)) 4 s.priv = true)) := by decide

theorem witness_AbortedSwaps :
    (let s := withControl false false true (svc [(1, 0x1002)] [])
     (Instr.swp .al 1 0 0 2).check = none ∧ (Instr.swpb .al 1 0 0 2).check = none ∧ s.alignFault 4 (s.reg 1) = true) ∧
    (let s := failing .swapRead
     s.alignFault 4 (s.reg 1) = false ∧ s.dataPort (s.reg 1) = .ahb ∧ s.busKind .swapRead (s.reg 1) ≠ .buffered ∧
      s.ahbError (s.busKind .swapRead (s.reg 1)) (s.firstPlace 4 (s.reg 1)) 4 s.priv = true) ∧
    (failing .swapWrite).Answers .swapRead 1 (failing .swapWrite).priv ((failing .swapWrite).reg 1) ∧
    (let s := failing .swapWrite
     s.inside = [] ∧ s.dataPort (s.reg 1) = .ahb ∧ s.busKind .swapWrite (s.reg 1) ≠ .buffered ∧
      s.ahbError (s.busKind .swapWrite (s.reg 1)) (s.firstPlace 1 (s.reg 1)) 1 s.priv = true) :=
  ⟨by decide, by decide, answers_of_plain (by decide), by decide⟩

theorem witness_LoadAfterStoreBringsTheValue :
    let s := svc [] []
    s.Clean ∧ s.Answers .write 1 true 0x1003 ∧ s.Answers .read 1 true 0x1003 ∧ s.Answers .write 2 true 0x1002 ∧
    s.Answers .read 2 true 0x1002 ∧ s.Answers .write 4 true 0xFFFFFFFF ∧ s.Answers .read 4 true 0xFFFFFFFF ∧
    s.Answers .swapWrite 4 true 0x1000 ∧ s.Answers .swapRead 4 true 0x1000 :=
  ⟨clean_of_empty rfl, answers_of_plain (by decide), answers_of_plain (by decide), answers_of_plain (by decide), answers_of_plain (by decide), answers_of_plain (by decide),
    answers_of_plain (by decide), answers_of_plain (by decide), answers_of_plain (by decide)⟩

theorem witness_Cp15ReadsItsRegisters :
    (svc [] []).cpsr.passes .al = true ∧ (svc [] []).priv = true ∧ (0 : Reg) ≠ 15 ∧ (0 : BitVec 3) ≠ 2 ∧
    (7 : BitVec 3) ≠ 2 ∧ ¬ ((0 : BitVec 3) = 0 ∧ (13 : BitVec 4) = 0 ∧ (0 : BitVec 4) = 0) ∧
    ¬ ((0 : BitVec 3) = 0 ∧ (13 : BitVec 4) = 13 ∧ (0 : BitVec 3) = 1) := by decide

theorem witness_Cp15WritesItsRegisters :
    let s := svc [(0, 0x0000BFFE), (1, 0x00070006), (2, 0)] []
    s.cpsr.passes .al = true ∧ s.priv = true ∧ (0 : Reg) ≠ 15 ∧ s.reg 0 &&& 0xFFFF4F71 = 0x00000F70 ∧ s.itcmWB = [] ∧
    s.dtcmWB = [] ∧ s.reg 2 &&& 0xFFFF4F71 ≠ 0x00000F70 ∧ s.reg 1 &&& 0xFFF8FFF9 = 0 ∧ s.reg 0 &&& 0xFFF8FFF9 ≠ 0 ∧ s.ahbWB = [] ∧
    (let s1 := { svc [(0, 0x00000F70)] [] with ctl := { s.ctl with i := true }, itcmWB := [{ off := 0, size := 4, data := 1 }] }
     s1.reg 0 &&& 0xFFFF4F71 = 0x00000F70 ∧ s1.itcmWB ≠ [] ∧ s1.ctl.i = true ∧ (s1.reg 0).getLsbD 12 = false) ∧
    (((0, 0, 0, 0) : BitVec 3 × BitVec 4 × BitVec 3 × BitVec 4) ∉
      [(0, 1, 0, 0), (0, 7, 4, 0), (0, 15, 2, 8), (0, 7, 4, 10), (1, 15, 0, 1)]) := by decide

theorem witness_UserModeHasNoCp15 :
    (usr [] []).cpsr.passes .al = true ∧ (usr [] []).cpsr.m = modeUser := by decide

theorem witness_DebugChannelTransfers :
    let s := svc [(0, 1), (1, 2)] []
    s.cpsr.passes .al = true ∧ s.priv = true ∧ (0 : Reg) ≠ 15 ∧ s.dcc.r = false ∧ s.dcc.w = false ∧
    (let s1 := { s with dcc := { s.dcc with r := true, w := true } }; s1.dcc.r = true ∧ s1.dcc.w = true) ∧
    s.reg 0 &&& 0xFFFFFFFE = 0 ∧ s.reg 1 &&& 0xFFFFFFFE ≠ 0 ∧
    ((0, 3, 0, 0) : BitVec 3 × BitVec 4 × BitVec 3 × BitVec 4) ∉ [(0, 0, 0, 0), (0, 1, 0, 0), (0, 2, 0, 0)] ∧
    ((0, 0, 0, 0) : BitVec 3 × BitVec 4 × BitVec 3 × BitVec 4) ∉ [(0, 1, 0, 0), (0, 2, 0, 0)] := by decide

theorem witness_ThumbOperands :
    (0 : LReg) ≠ 1 ∧ (true || false) = true ∧ hiReg true 6 ≠ 15 ∧ hiReg true 7 = 15 ∧
    (machine 0x400000F3 0x8000 [] []).cpsr.passes .eq = true ∧ (machine 0x000000F3 0x8000 [] []).cpsr.passes .eq = false := by
  decide

/-- Thumb state, with words that r1 and the stack pointer address. -/
def mem2 : State := machine 0x000000F3 0x8000 [(1, 0x1000), (2, 4), (13, 0x1008)] [(0x1000, 1), (0x1004, 2), (0x1008, 3)]

theorem witness_ThumbLoadsAndStores :
    mem2.LoadReady 4 mem2.priv (mem2.reg 1 + (1 : BitVec 5).setWidth 32 * 4) ∧
    (mem2.reg 1 + (1 : BitVec 5).setWidth 32 * 4).toNat % 4 = 0 ∧ mem2.LoadReady 2 mem2.priv (mem2.reg 1 + mem2.reg 2) ∧
    mem2.LoadReady 1 mem2.priv (mem2.reg 1 + mem2.reg 2) ∧ mem2.StoreReady 4 mem2.priv (mem2.reg 13) ∧
    mem2.StoreReady 2 mem2.priv (mem2.reg 1) ∧ mem2.StoreReady 1 mem2.priv (mem2.reg 1) ∧ mem2.ctl.a = false ∧
    (mem2.reg 1 + 2).toNat % 4 ≠ 0 ∧ (mem2.reg 1 + 1).toNat % 2 ≠ 0 :=
  ⟨ready_of_plain rfl (by decide) (by decide), by decide, ready_of_plain rfl (by decide) (by decide),
    ready_of_plain rfl (by decide) (by decide), ready_of_plain rfl (by decide) (by decide),
    ready_of_plain rfl (by decide) (by decide), ready_of_plain rfl (by decide) (by decide), by decide, by decide, by decide⟩

theorem witness_ThumbMultipleTransfers :
    mem2.Clean ∧ ((0x40#8 ++ 0x03#8 : BitVec 16) ≠ 0) ∧ mem2.AnswersAll .write 3 (mem2.reg 13 - 12) ∧ (3 : BitVec 8) ≠ 0 ∧
    mem2.AnswersAll .read 2 (mem2.reg 13) ∧ mem2.AnswersAll .write 2 (mem2.reg 1) ∧ mem2.AnswersAll .read 2 (mem2.reg 1) ∧
    ((3 : BitVec 8).getLsbD 2 = false ∧ isLowest (0#8 ++ 3#8) 0 = true ∧ (6 : BitVec 8).getLsbD 2 = true ∧
      isLowest (0#8 ++ 6#8) 2 = false) :=
  ⟨clean_of_empty rfl, by decide, answersAll_of_plain (by decide), by decide, answersAll_of_plain (by decide),
    answersAll_of_plain (by decide), answersAll_of_plain (by decide), by decide⟩

/-- The step invariants: the reset state meets each, and with an instruction in place it steps. -/
theorem witness_StepInvariants :
    (let s := State.reset.withFetchWord 32 0xE5810000
     s.itcm.wf = true ∧ s.dtcm.wf = true ∧ s.ahb.wf = true ∧ (s.unrecoverable = true ∨ legalMode s.cpsr.m = true) ∧
      s.pc.toNat % s.instrLen = 0 ∧ s.ahbWB.length ≤ 4 ∧ (s.ahbWB.filter fun e => e.first).length ≤ 2 ∧
      s.itcmWB.length ≤ 2 ∧ s.dtcmWB.length ≤ 2 ∧ s.ipb.length ≤ 4) ∧
    ∃ t, step (State.reset.withFetchWord 32 0xE5810000) = .next t := ⟨by decide, ⟨_, rfl⟩⟩

theorem witness_UserModeLeavesOnlyByException :
    (usr [] []).cpsr.m = modeUser ∧ (∃ t, exec (.addImm .al true 1 0 0 1) (usr [] []) = .next t) ∧
    ∃ t, exec (.swi .al 0) (usr [] []) = .next t := ⟨by decide, ⟨_, rfl⟩, ⟨_, rfl⟩⟩

theorem witness_ResetSetsWhatTheSpecSays :
    let s := svc [] []
    s.ahbWB = [] ∧ s.itcmWB = [] ∧ s.dtcmWB = [] := by decide

theorem witness_AgentsActOnMemoryByTheirRules :
    (let s := { svc [] [] with agenda := [.bus .drainAhb],
                               ahbWB := [{ addr := 0x1000, size := 4, data := 1, first := true, priv := true }] }
     s.CleanAhb ∧ s.agenda = .bus .drainAhb :: []) ∧
    (let s := { svc [] [] with agenda := [.bus (.drainTcm .dtcm)], dtcmWB := [{ off := 0, size := 4, data := 1 }] }
     s.CleanTcm .dtcm ∧ s.agenda = .bus (.drainTcm .dtcm) :: [] ∧ s.tcmWB .dtcm = { off := 0, size := 4, data := 1 } :: []) ∧
    (let s := { svc [] [] with agenda := [.bus (.dmaWrite 0x00400102 2 0x1122)] }
     s.agenda = .bus (.dmaWrite 0x00400102 2 0x1122) :: [] ∧ s.forbidden = none ∧ s.tcmSize .dtcm ≠ 0) ∧
    (let s := { svc [] [] with agenda := [.bus (.dmaRead 0x00000100)] }
     s.agenda = .bus (.dmaRead 0x00000100) :: [] ∧ s.tcmSize .itcm ≠ 0 ∧ s.params.tcmErrors = false) := by
  refine ⟨⟨?_, rfl⟩, ⟨fun _ _ => rfl, rfl, rfl⟩, by decide, by decide⟩
  intro e he
  obtain rfl : e = _ := List.mem_singleton.mp he
  decide

-- A DMA write to a word in error is old or new, by a free choice for each byte, and draws one for each; a store of the core to it
-- goes on (R143, R154, U40). The word beside it takes the new value.
theorem test_tcm_error_on_a_write :
    (let s := { svc [] [] with params := { Params.atReset with tcmErrors := true }, dtcmErrors := [0] }
     match dmaWrite 0x00400000 2 0x1122 s, dmaWrite 0x00400004 2 0x1122 s with
     | .next t, .next u => (t.free, t.dtcm.length, u.free, (span 4 2).map (u.ramByte .dtcm))
     | _, _ => (0, 0, 0, [])) = (2, 2, 0, [0x22, 0x11]) := by decide

/-! ### Other agents and the debugger -/

-- Between the two words that LDMIA r0!, {r1, r2} reads from the DTCM, the DMA master writes the second one (R141, R385).
theorem test_dma_acts_inside_ldm :
    (let s := svc [(0, 0x00400000)] []
     let s := { s with ctl := { s.ctl with d := true }
                       dtcm := [(0, 1), (1, 0), (2, 0), (3, 0), (4, 2), (5, 0), (6, 0), (7, 0)]
                       inside := [[], [.dmaWrite 0x00400004 4 7]] }
     match exec (.ldm1 .al false true true 0 6) s with
     | .next t => [t.getPhys .r1, t.getPhys .r2]
     | _ => []) = [1, 7] := by decide

-- Between the two halves of SWP r1, r2, [r0] at a DTCM address the DMA master writes; the swap's store comes after it (R396).
theorem test_dma_acts_inside_tcm_swap :
    (let s := svc [(0, 0x00400000), (2, 9)] []
     let s := { s with ctl := { s.ctl with d := true }, dtcm := [(0, 1), (1, 0), (2, 0), (3, 0)]
                       inside := [[.dmaWrite 0x00400000 4 7]] }
     match exec (.swp .al 0 1 0 2) s with
     | .next t => [t.getPhys .r1, t.valueAt 4 0x00400000, ofBytes ((span 0 4).map (t.ramByte .dtcm))]
     | _ => []) = [1, 9, 7] := by decide

/-- The bits of the next instruction. -/
def fetchedBits (s : State) : Word := match s.coreFetch with | .ok f _ => f.bits | _ => 0

-- A word fetched ahead is executed although its address has been written since, also after a control transfer, until the drain
-- operation and a control transfer have passed (R70, R160, R162, U36).
theorem test_word_fetched_ahead_is_stale :
    (let s := fetchAhead 0x8004 (svc [] [(0x8004, 0xE3A00001)])
     let s := { s with pc := 0x8004, nonseq := false, ahb := s.ahb.setBytes 0x8004 (wordBytes 0xE3A00002 4) }
     [s, s.branchTo 0x8004, s.barrier, s.barrier.branchTo 0x8004].map fetchedBits) =
      [0xE3A00001, 0xE3A00001, 0xE3A00001, 0xE3A00002] := by decide

-- The fetch that a control transfer makes has its own marks: an old word fetched in a privileged mode does not pass over the error
-- that the slave answers a User fetch with (R145, R592). After another AHB master's write the control transfer suffices (R162).
theorem test_old_word_is_fetched_again :
    (let s := fetchAhead 0x8004 (svc [] [(0x8004, 0xE3A00001)])
     let user := { s with ahbErrors := [{ base := 0x8004, size := 4, kinds := [.fetch], userOnly := true }]
                          cpsr := { s.cpsr with m := modeUser } }
     (match (user.branchTo 0x8004).coreFetch with | .ok f _ => f.err | _ => false,
      fetchedBits ((ahbWrite 0x8004 2 s).branchTo 0x8004))) = (true, 0xE3A00002) := by decide

-- An aborted LDRD r0, [pc] loses r0 and r1 (R351, R370, U9): two free values are drawn.
theorem test_aborted_ldrd_with_base_pc :
    (let s := svc [] []
     match exec (.ldrdImm .al true true false 15 0 0 0) { s with
       ctl := { s.ctl with a := true }, pc := 0x8004 } with
     | .next t => (t.pc, t.free - s.free)
     | _ => (0, 0)) = (0x10, 2) := by decide

-- An unallocated ARM code whose condition fails only moves the pc (R21, R172).
theorem test_unallocated_code_with_failed_condition :
    runs 32 0x01900F9F (svc [] []) [] [] = some (0x8004, 0xD3, [], []) := by decide

/-- The halted core with DBGEN HIGH. -/
def halted : State :=
  { svc [(1, 0x11)] [] with params := { Params.atReset with dbgen := true }
                            dbg := { (svc [] []).dbg with halted := true } }

-- Chain 15 reads the ID register and the Control Register, and writes the latter (R608, Table 8-2); then the debugger makes the
-- core execute MOV r0, r1 (R600).
theorem test_debugger_reads_and_executes :
    (match chain15 0x0000000000 halted with | .next t => t.dbgOut | _ => none) = some 0x41059681 ∧
    (match chain15 0x0200000000 halted with | .next t => t.dbgOut | _ => none) = some 0x00000F70 ∧
    (match chain15 0x4200002F70 halted with | .next t => t.ctl.v | _ => false) = true ∧
    (match debugExec 0xE1A00001 halted with | .next t => t.getPhys .r0 | _ => 0) = 0x11 := by decide

-- After a watchpoint r15 shows five instructions on, and after SUB pc, pc, #20 and a restart the core goes on with the next
-- instruction (R604, A8); after SUB pc, pc, #16 with the one after it.
theorem test_sub_pc_20_returns_after_a_watchpoint :
    (let s := { halted with dbg := { halted.dbg with halted := false } }.enterWatched
     let restarted := fun bits => match debugExec bits s with
       | .next t => match debugRestart none t with | .next u => (u.pc, u.dbg.halted) | _ => (0, true)
       | _ => (0, true)
     (match debugRead .pc s with | .next t => t.dbgOut | _ => none, restarted 0xE24FF014, restarted 0xE24FF010)) =
      (some 0x8014, (0x8000, false), (0x8004, false)) := by decide

-- An unrecoverable core executes nothing in debug state either (R46).
theorem test_unrecoverable_core_executes_nothing :
    (match debugExec 0xE1A00001 { halted with unrecoverable := true } with | .next t => t.getPhys .r0 | _ => 1) = 0 := by decide

-- A word fetched from the ITCM does not supply a fetch that goes to the AHB after a control transfer (R112, R652).
theorem test_itcm_word_needs_the_itcm_route :
    (let s := fetchAhead 0x003FFFFC (withItcm 0x003FFFFC)
     let s := State.branchTo { s with ctl := { s.ctl with i := false }, ahb := s.ahb.setBytes 0x003FFFFC (wordBytes 0xE3A00002 4) }
       0x003FFFFC
     (s.pipe.length, match s.coreFetch with | .ok f _ => f.bits | _ => 0)) = (1, 0xE3A00002) := by decide

/-- The ITCM has just been switched off; at the pc it holds B to itself, the AHB holds MOV r0, #2. -/
def switchedOff (next : Word) : State :=
  { svc [] [(0x100, 0xE3A00002)] with pc := 0x100, itcm := [(0x100, 0xFE), (0x101, 0xFF), (0x102, 0xFF), (0x103, 0xEA)],
                                      oldRoutes := [{ i := true, b := false, ipb := none, next := next }] }

-- A branch that directly follows the MCR runs; an instruction further on that the two routings supply differently is refused
-- (R652, U37).
theorem test_branch_after_a_cp15_write_runs :
    (match step (switchedOff 0x100) with | .next t => (t.pc, t.oldRoutes) | _ => (0, [])) = (0x100, []) ∧
    (match step (switchedOff 0xFC) with | .refused r => some r | _ => none) = some (.unpredictable .staleRouting) := by decide

-- The branch that follows the MCR may be the old word that the pipeline holds: B 0x108, fetched before B to itself was stored
-- (R160, R161, R652).
theorem test_old_branch_after_a_cp15_write_runs :
    (let old := { addr := 0x100, word := 0xEA000000, lo := true, hi := true, err := false, bkpt := false, itcm := true,
                  drained := false, old := false }
     match step { switchedOff 0x100 with pipe := [old] } with | .next t => (t.pc, t.ctl.i) | _ => (0, true)) =
      (0x108, false) := by decide

-- DBGDEWPT HIGH between two words of an LDM in monitor debug-mode is refused, although it goes LOW again (R147).
theorem test_external_pin_inside_ldm_is_refused :
    (let s := debugged true (svc [(0, 0x1000)] [])
     match exec (.ldm1 .al false true true 0 6) { s with
       inside := [[.setPins { s.pins with dwpt := true }, .setPins s.pins]] } with
     | .refused r => some r
     | _ => none) = some (.unpredictable .externalInMonitor) := by decide

-- BKPT with a condition field other than 1110 is refused whatever the flags (R345).
theorem test_bkpt_with_a_condition_is_refused :
    (match step ((svc [] []).withFetchWord 32 0x01200070) with | .refused r => some r | _ => none) =
      some (.unallocatedArm 0x01200070) := by decide

-- ETMEN HIGH is refused with no ETM, and driven with one (R671).
theorem test_etmen_needs_an_etm :
    (let s := { svc [] [] with agenda := [.bus (.setPins { (svc [] []).pins with etmen := true })] }
     match step s, step { s with params := { s.params with fullDebug := true, etm := true } } with
     | .refused r, .next t => (some r, t.pins.etmen)
     | _, _ => (none, false)) = (some (.unpredictable .etmenNoEtm), true) := by decide

-- A mode that the debugger changes back does not revive the run with FIFOFULL HIGH (R612).
theorem test_stall_returns_when_the_mode_was_left :
    (let s := { halted with etmRun := some 0b10001, pins := { halted.pins with fifofull := true } }
     match debugCpsr 0xD1 s with | .next t => t.etmRun | _ => some 0) = none := by decide

theorem witness_StandbyAndFifofullHoldTheCore :
    (let s := { svc [] [] with standby := true }
     s.forbidden = none ∧ s.agenda = [] ∧ s.unrecoverable = false ∧ s.dbg.halted = false ∧ s.debugRequest = false ∧
     s.pins.fifofull = false ∧ s.standby = true ∧ s.pins.fiq = false ∧ s.pins.irq = false ∧
     (withPins false true s).pins.irq = true) ∧
    (let s := { svc [] [] with pins := { (svc [] []).pins with fifofull := true } }
     s.params.legal = true ∧ s.monitorStop = none ∧ s.pins.fifofull = true ∧ s.params.etm = false ∧
     let q := { s with pins := { (svc [] []).pins with etmen := true } }
     q.params.legal = true ∧ q.monitorStop = none ∧ q.pins.fifofull = false ∧ q.pins.etmen = true ∧ q.params.etm = false) ∧
    (let p := { (svc [] []).pins with fifofull := true }
     let s := { svc [] [] with agenda := [.bus (.setPins p)] }
     s.forbidden = none ∧ s.agenda = .bus (.setPins p) :: [] ∧ (s.drivePins p).monitorStop = none ∧ p.fifofull = true ∧
     s.params.etm = false ∧ let q := { (svc [] []).pins with etmen := true }
     (s.drivePins q).monitorStop = none ∧ q.fifofull = false ∧ q.etmen = true) ∧
    (let s := usr [] []
     let s := { s with params := { s.params with fullDebug := true, etm := true },
                       pins := { s.pins with fifofull := true, fiq := true, irq := true } }
     s.forbidden = none ∧ s.debugRequest = false ∧ s.params.etm = true ∧ s.etmRun ≠ some s.cpsr.m ∧ s.cfg.fm = true ∧
     s.cfg.im = false ∧ s.pins.irq = true ∧ s.cpsr.i = false ∧ s.pastTop = false ∧ s.dbg.wptLatch = false ∧
     { s.cfg with fm := false }.fm = false ∧ s.pins.fiq = true ∧ s.cpsr.f = false ∧ { s.pins with irq := false }.irq = false) ∧
    (let s := { svc [] [] with standby := true }
     let s := { s with params := { s.params with fullDebug := true, etm := true },
                       pins := { s.pins with fifofull := true, irq := true } }
     s.forbidden = none ∧ s.debugRequest = false ∧ s.params.etm = true ∧ s.etmRun ≠ some s.cpsr.m ∧ s.pins.fiq = false ∧
     s.pins.irq = true ∧ s.cfg.im = false ∧ s.cpsr.i = true) := by
  decide

theorem witness_RunningWithFifofull :
    let s := (svc [] []).withFetchWord 32 0xE1A00001
    let s := { s with params := { s.params with fullDebug := true, etm := true }, pins := { s.pins with fifofull := true },
                      etmRun := some s.cpsr.m }
    s.forbidden = none ∧ s.pins.fifofull = true ∧ s.params.etm = true ∧ s.etmRun = some s.cpsr.m ∧ s.standby = false ∧
    s.pastTop = false ∧ s.dbg.wptLatch = false ∧ s.pins.fiq = false ∧ s.pins.irq = false ∧ s.staleRoute = false ∧
    (match s.coreFetch with
      | .ok f s1 => decide (f.err = false ∧ s1.breakHit f = false ∧ s1.bankedUse (.movShImm .al false 0 0 0 .lsl 1) = false ∧
          decode (s1.code f.bits) = .ok (.movShImm .al false 0 0 0 .lsl 1))
      | _ => false) = true := by decide

theorem witness_DebugRequestsAndWatchpointsTakeEffect :
    (let s := { svc [] [] with params := { Params.atReset with dbgen := true },
                               dbg := { (svc [] []).dbg with request := true } }
     s.forbidden = none ∧ s.agenda = [] ∧ s.unrecoverable = false ∧ s.dbg.halted = false ∧ s.params.dbgen = true ∧
     s.dbg.request = true ∧ s.dbg.monitor = false ∧ { s.dbg with halted := true }.halted = true) ∧
    (let s := debugged true (svc [] [])
     let r := { s with dbg := { s.dbg with request := true } }
     let p := { s.pins with edbgrq := true }
     r.params.legal = true ∧ r.externalHigh = false ∧ r.params.dbgen = true ∧ r.dbg.monitor = true ∧ r.dbg.request = true ∧
     { s with agenda := [.bus (.setPins p)] }.forbidden = none ∧ { s with agenda := [.debugControl true true false] }.forbidden = none ∧
     p.edbgrq = true ∧ p.ibkpt = false ∧ p.dwpt = false ∧ s.dbg.halted = false ∧ s.dbg.wptLatch = false ∧
     s.pins.ibkpt = false ∧ s.pins.dwpt = false) ∧
    ∀ monitor : Bool,
      let s := debugged monitor (svc [(1, 0x1000)] [(0x1000, 5)])
      let s := { s with dbg := { s.dbg with wptMatch := [true] } }
      let i := Instr.ldrImm .al true true false 1 0 0
      let x : Access := ⟨.read, 4, true, 0x1000⟩
      s.access i = some x ∧ i.check = none ∧ s.cpsr.passes (accessed s.cpsr.m i).1 = true ∧ s.dbg.wptLatch = false ∧
      s.dbg.halted = false ∧ s.params.dbgen = true ∧ s.params.fullDebug = true ∧ s.dbg.wptMatch.head? = some true ∧
      plain s.unwatched x.kind x.size x.priv x.addr = true ∧ misaligned x.size x.addr = false ∧ s.ahbWB = [] ∧
      s.dbg.monitor = monitor ∧ s.pins.dwpt = false ∧
      (match exec i s.unwatched with | .next _ => true | _ => false) = true := by decide

/-- But for a latched watchpoint nothing stands before the instruction, after which the core is not halted. -/
def watchedBefore (s : State) (i : Instr) (p : State → Bool) : Bool :=
  finds s fun f s1 => !s.dbg.monitor && !f.err && !s1.breakHit f && !s1.bankedUse i &&
    decide (decode (s1.code f.bits) = .ok i) &&
    (match exec i s1 with | .next t => !t.dbg.halted && p t | _ => false)

theorem witness_WatchpointHaltsAfterTheNextInstruction :
    watchedBefore ((debugged false (svc [(1, 7)] [])).withFetchWord 32 0xE1A00001) (.movShImm .al false 0 0 0 .lsl 1)
      (fun t => !t.takesFiq && !t.takesIrq) = true ∧
    (let i := Instr.msrReg .al false 1 15 0 0
     let s := (debugged false (svc [(0, 0x13)] [])).withFetchWord 32 0xE121F000
     watchedBefore (withPins true true s) i (fun t => !t.pastTop && !t.unrecoverable && t.takesFiq) = true ∧
     watchedBefore (withPins false true s) i (fun t => !t.pastTop && !t.unrecoverable && !t.takesFiq && t.takesIrq) = true) := by
  decide

-- An interrupt that the instruction after a watchpointed one lets through (MSR CPSR_c, r0 clears I and F) is entered before debug
-- state: nIRQ LOW, and nFIQ LOW (R604).
theorem test_pending_interrupt_is_entered_after_a_watchpoint :
    (let s := (debugged false (svc [(0, 0x13)] [])).withFetchWord 32 0xE121F000
     let s := { s with dbg := { s.dbg with wptLatch := true } }
     [withPins false true s, withPins true true s, s].map fun s => match step s with
       | .next t => (t.pc, t.cpsr.m, t.getPhys .r14_irq, t.dbg.halted, t.dbg.pcView)
       | _ => (0, 0, 0, false, 0)) =
    [(0x18, 0x12, 0x8008, true, 0x2C), (0x1C, 0x11, 0, true, 0x30), (0x8004, 0x13, 0, true, 0x8018)] := by decide

end Sys2Proof.Tests
end

/-! PROOF. The frame that every meaning has: the condition first, then the UNPREDICTABLE operands (R20, R21); a fetched code that
no row of the opcode table holds (R196, R207); the statements O9, O10 and O4. -/

namespace Sys2Proof.Machine

/-! ### The frame that the meanings share (R20, R21) -/

/-- In a privileged mode an access to CP15 has its meaning (R230). -/
theorem privilegedOnly_of_priv {s : State} (k : Result) (h : s.priv = true) : privilegedOnly s k = k := if_pos h

/-- In a privileged mode an access to CP14 has its meaning (R260). -/
theorem cp14Access_of_priv {s : State} (k : Result) (h : s.priv = true) : cp14Access s k = k := if_pos h

/-- Every meaning is one of a conditional instruction, for the condition that `accessed` names; in a privileged mode it first
refuses the combination of operands that `check` names. The accesses to CP15 and CP14 ask for the privilege before that. -/
theorem exec_frame (i : Instr) (s : State) :
    ∃ k, exec i s = conditional (accessed s.cpsr.m i).1 s k ∧ (s.priv = true → ∃ k', k = guarded i.check k') := by
  cases i
  case mcr15 | mrc15 => exact ⟨_, rfl, fun h => ⟨_, privilegedOnly_of_priv _ h⟩⟩
  case mcr14 | mrc14 => exact ⟨_, rfl, fun h => ⟨_, cp14Access_of_priv _ h⟩⟩
  all_goals exact ⟨_, rfl, fun _ => ⟨_, rfl⟩⟩

/-- An instruction whose condition fails only advances the pc (R21). -/
theorem exec_of_fails {i : Instr} {s : State} (h : s.cpsr.passes (accessed s.cpsr.m i).1 = false) :
    exec i s = .next s.advance := by
  obtain ⟨k, hk, -⟩ := exec_frame i s
  rw [hk, conditional_fail h]

/-- An advance moves the pc to the next instruction, ends the hazard of R656, and decides the mark past the top (R18, R38). -/
theorem advance_eq (s : State) :
    s.advance = { s with pc := s.nextAddr, pastTop := s.advance.pastTop, bankHazard := false } := rfl

/-- Settles O9, by the frame of the meanings; the conditions are the table of R172 by definition of `Psr.passes`. -/
theorem failedConditionOnlyAdvances : Obligations.FailedConditionOnlyAdvances := by
  unfold Obligations.FailedConditionOnlyAdvances
  exact ⟨fun _ s h => ⟨s.advance, exec_of_fails h, advance_eq s⟩, fun _ => rfl⟩

/-- Settles O10: the condition passed, the frame of the meanings asks `check` next. -/
theorem unpredictableOperandsAreRefused : Obligations.UnpredictableOperandsAreRefused := by
  unfold Obligations.UnpredictableOperandsAreRefused
  intro i s u hu hp hc
  obtain ⟨k, hk, hg⟩ := exec_frame i s
  obtain ⟨k', rfl⟩ := hg hp
  rw [hk, conditional_pass hc, hu, guarded_some]

/-! ### Codes that no row holds (R196, R207) -/

/-- Nothing standing before it, a step runs the code that the fetch brings (R566 step 8). -/
theorem step_runCode {s s1 : State} {f : Fetched} (hs : s.Undisturbed) (hf : s.coreFetch = .ok f s1) (he : f.err = false)
    (hb : s1.breakHit f = false) (hr : s.staleRoute = false) : step s = runCode exec f.bits s1 := by
  obtain ⟨hforb, hag, hun, hhalt, hreq, hfifo, hetm, hstand, htop, hfiq, hirq, hlatch⟩ := hs
  calc step s = coreTurnWith exec s := step_coreTurn hforb hag
    _ = boundary exec s := coreTurnWith_eq hun hhalt hreq hfifo hetm hstand
    _ = runInstruction exec s := by
      rw [boundary_eq htop (by rw [hlatch, Bool.false_and]) hfiq hirq, hlatch, if_neg Bool.false_ne_true]
    _ = runCode exec f.bits s1 := runInstruction_eq hr hf he hb

/-- A fetch leaves the pc and the status register alone. -/
theorem coreFetch_pc_cpsr {s s1 : State} {f : Fetched} (hf : s.coreFetch = .ok f s1) : s1.pc = s.pc ∧ s1.cpsr = s.cpsr := by
  obtain ⟨h, -⟩ := coreFetch_framed hf
  rw [h]
  exact ⟨rfl, rfl⟩

/-- The decoder rejects an ARM word under its own name (R196). -/
theorem decode_arm_error {w : Word} {e : DecodeError} (h : decode (.arm w) = .error e) : e = .unallocatedArm w := by
  simp only [decode] at h
  split at h
  · cases h
  · injection h with h; exact h.symm

/-- The decoder rejects a Thumb halfword under its own name (R207). -/
theorem decode_thumb_error {c : Half} {e : DecodeError} (h : decode (.thumb c) = .error e) : e = .unallocatedThumb c := by
  simp only [decode] at h
  split at h
  · cases h
  · injection h with h; exact h.symm

/-- A code that no row holds is refused if it would execute, else the pc advances (R196, R207). -/
theorem runCode_error {run : Instr → State → Result} {bits : Word} {s : State} {e : DecodeError}
    (h : decode (s.code bits) = .error e) : runCode run bits s =
      if codePasses (s.code bits) s.cpsr then .refused (DecodeError.refusal e) else .next s.advance := by
  simp only [runCode, h]

/-- An ARM code with a condition would execute if that passes, or if it is the code of BKPT (R172, R330). -/
theorem codePasses_cond {w : Word} {c : Cond} (p : Psr) (h : c.bits = w.extractLsb' 28 4) :
    codePasses (.arm w) p = (decide (w &&& 0x0FF000F0 = 0x01200070) || p.passes c) := by
  simp only [codePasses, ← h, Cond.ofBits_bits, beq_eq_decide]

/-- An ARM code with condition field 1111 has no condition to fail (R173). -/
theorem codePasses_uncond {w : Word} (p : Psr) (h : w.extractLsb' 28 4 = 0b1111#4) : codePasses (.arm w) p = true := by
  have hc : Cond.ofBits 0b1111#4 = none := rfl
  simp only [codePasses, h, hc, Bool.or_true]

/-- The code of BKPT has no condition to fail (R330, R345). -/
theorem codePasses_bkpt {w : Word} (p : Psr) (h : w &&& 0x0FF000F0 = 0x01200070) : codePasses (.arm w) p = true := by
  simp only [codePasses, h, beq_self_eq_true, Bool.true_or]

/-- A step on a fetched code that no row holds: refused if it would execute, else the pc advances. -/
theorem step_error {s s1 : State} {f : Fetched} {e : DecodeError} (hs : s.Undisturbed) (hf : s.coreFetch = .ok f s1)
    (he : f.err = false) (hb : s1.breakHit f = false) (hr : s.staleRoute = false) (hd : decode (s1.code f.bits) = .error e) :
    step s = if codePasses (s1.code f.bits) s.cpsr then .refused (DecodeError.refusal e) else .next s1.advance := by
  rw [step_runCode hs hf he hb hr, runCode_error hd, (coreFetch_pc_cpsr hf).2]

/-- Settles O4, by the instruction set state and by whether the code has a condition that fails. -/
theorem unallocatedCodeIsRefused : Obligations.UnallocatedCodeIsRefused := by
  unfold Obligations.UnallocatedCodeIsRefused
  intro s s1 f e hs hf he hb hr hd
  obtain ⟨hpc, hcpsr⟩ := coreFetch_pc_cpsr hf
  have hstep := step_error hs hf he hb hr hd
  simp only [State.code, hcpsr] at hd hstep
  dsimp only
  cases ht : s.cpsr.t with
  | true =>
    rw [ht, if_pos rfl] at hd hstep
    cases decode_thumb_error hd
    exact ⟨(nomatch ·), fun _ => (nomatch ·), fun _ => (nomatch ·), fun _ => hstep⟩
  | false =>
    rw [ht, if_neg Bool.false_ne_true] at hd hstep
    cases decode_arm_error hd
    refine ⟨fun _ h => ?_, fun c _ hc hp => ?_, fun c _ hc hk hp => ⟨s1.advance, ?_, ?_⟩, (nomatch ·)⟩
    · have hp := h.elim (codePasses_uncond s.cpsr) (codePasses_bkpt s.cpsr)
      rw [hstep, hp, if_pos rfl]; rfl
    · rw [hstep, codePasses_cond _ hc, hp, Bool.or_true, if_pos rfl]; rfl
    · rw [hstep, codePasses_cond _ hc, hp, decide_eq_false hk, Bool.or_self, if_neg Bool.false_ne_true]
    · have hn : s.nextAddr = s1.nextAddr := by simp only [State.nextAddr, State.instrLen, hpc, hcpsr]
      rw [hn]; rfl

end Sys2Proof.Machine

/-! PROOF. Data processing: `AddWithCarry` against the rules of carry, borrow and overflow (R22, R276), and the meaning of the
operations with a destination in their three forms (R275 to R293); the statement O14. -/

namespace Sys2Proof.Machine

/-! ### AddWithCarry (R22) -/

/-- The value of `AddWithCarry` is the sum of words. -/
theorem addWithCarry_value (x y : Word) (c : Bool) : (addWithCarry x y c).value = x + y + (if c then 1 else 0) := by
  apply BitVec.eq_of_toNat_eq
  cases c <;> simp [addWithCarry, bitNat, BitVec.toNat_add]

/-- The sign bit of a word. -/
theorem signBit_eq (x : Word) : x.getLsbD 31 = decide (2 ^ 31 ≤ x.toNat) := by
  rw [← BitVec.msb_eq_getLsbD_last x, BitVec.msb_eq_decide]

/-- Overflow by the sign rule: both operands have one sign and the sum the other (R22). -/
theorem addWithCarry_overflow (x y : Word) (c : Bool) : (addWithCarry x y c).overflow =
    (x.getLsbD 31 == y.getLsbD 31 && (addWithCarry x y c).value.getLsbD 31 != x.getLsbD 31) := by
  have hx := x.isLt
  have hy := y.isLt
  have hc : bitNat c ≤ 1 := by cases c <;> decide
  rw [Bool.eq_iff_iff]
  simp only [addWithCarry, signBit_eq, BitVec.toInt_eq_toNat_cond, BitVec.toNat_ofNat, Bool.and_eq_true, beq_iff_eq,
    bne_iff_ne, ne_eq, decide_eq_decide, decide_eq_true_eq]
  omega

/-- Adding the complement subtracts, and a clear carry is the borrow (R22). -/
theorem addWithCarry_not_value (x y : Word) (c : Bool) : (addWithCarry x (~~~y) c).value = x - y - (if c then 0 else 1) := by
  rw [addWithCarry_value]
  cases c <;> simp only [if_true, Bool.false_eq_true, if_false] <;> bv_omega

/-- The carry out of a subtraction says that it needs no borrow (R22). -/
theorem addWithCarry_not_carry (x y : Word) (c : Bool) :
    (addWithCarry x (~~~y) c).carry = decide (y.toNat + (if c then 0 else 1) ≤ x.toNat) := by
  have hy := y.isLt
  simp only [addWithCarry, BitVec.toNat_not, decide_eq_decide]
  cases c <;> simp [bitNat] <;> omega

/-! ### The arithmetic operations (R280 to R285) -/

/-- The addition class by its rule: the sum of words, and the flags of an addition (R276, R22). -/
theorem arithResult_add (x y : Word) (c : Bool) (p : Psr) :
    arithResult (addWithCarry x y c) p = (x + y + (if c then 1 else 0), flagsAdd true p x y c) := by
  simp only [arithResult, Psr.setArith, Psr.setNZ, flagsAdd, addWithCarry_overflow, addWithCarry_value,
    BitVec.msb_eq_getLsbD_last]
  rfl

/-- The subtraction class by its rule: the difference of words, and the flags of a subtraction, a clear carry being the borrow
(R276, R22). -/
theorem arithResult_sub (x y : Word) (c : Bool) (p : Psr) :
    arithResult (addWithCarry x (~~~y) c) p = (x - y - (if c then 0 else 1), flagsSub true p x y (!c)) := by
  have hsign : (x.getLsbD 31 == (~~~y).getLsbD 31) = (x.getLsbD 31 != y.getLsbD 31) := by
    rw [BitVec.getLsbD_not]
    cases x.getLsbD 31 <;> cases y.getLsbD 31 <;> rfl
  simp only [arithResult, Psr.setArith, Psr.setNZ, flagsSub, addWithCarry_overflow, addWithCarry_not_value,
    addWithCarry_not_carry, BitVec.msb_eq_getLsbD_last, hsign]
  cases c <;> rfl

/-- The logical class by its rule (R276). -/
theorem logicalResult_eq (r : Word) (c : Bool) (p : Psr) : logicalResult r c p = (r, flagsLogical true p r c) := by
  simp only [logicalResult, Psr.setLogical, Psr.setNZ, flagsLogical, BitVec.msb_eq_getLsbD_last]
  rfl

/-- The result and the flags of an operation are those of its rule (R276, R278 to R293). -/
theorem DpOp.eval_eq (op : DpOp) (n : Word) (x : Shifted) (p : Psr) :
    op.eval n x p = (op.result n x.value p.c, op.status true n x p) := by
  cases op
  case adc => exact arithResult_add ..
  case sbc | rsc => exact arithResult_sub ..
  case add | cmn => simp [DpOp.eval, DpOp.result, DpOp.status, arithResult_add]
  case sub | rsb | cmp => simp [DpOp.eval, DpOp.result, DpOp.status, arithResult_sub]
  all_goals exact logicalResult_eq ..

/-- The S bit decides whether an operation changes the CPSR (R276). -/
theorem DpOp.status_eq_ite (op : DpOp) (sf : Bool) (n : Word) (x : Shifted) (p : Psr) :
    op.status sf n x p = if sf then op.status true n x p else p := by
  cases sf <;> cases op <;> rfl

/-- No operation changes the mode or the state (R276). -/
theorem DpOp.status_mode_state (op : DpOp) (sf : Bool) (n : Word) (x : Shifted) (p : Psr) :
    (op.status sf n x p).m = p.m ∧ (op.status sf n x p).t = p.t := by
  cases sf <;> cases op <;> exact ⟨rfl, rfl⟩

/-! ### An instruction that writes one register and the flags (R275) -/

/-- An instruction that writes a register other than r15, leaves mode and state of the CPSR alone, and advances (R275). -/
theorem gives_setReg_advance (s : State) {p : Psr} {rd : Reg} (v : Word) (hm : p.m = s.cpsr.m) (ht : p.t = s.cpsr.t)
    (hrd : rd ≠ 15) :
    Gives (.next (State.setReg { s with cpsr := p } rd v).advance) s s.nextAddr p [(s.phys rd, v)] [] := by
  have hset : State.setReg { s with cpsr := p } rd v = State.setPhys { s with cpsr := p } (s.phys rd) v := by
    simp only [State.setReg, if_neg hrd, State.phys, hm]
  rw [hset]
  refine ⟨_, rfl, ?pc, rfl, ⟨?written, ?others⟩, ⟨nofun, fun _ _ => rfl⟩, rfl, rfl, rfl⟩
  case pc => simp only [State.advance_pc, State.setPhys_pc, State.nextAddr, State.instrLen, State.setPhys_cpsr, ht]
  case written => simp
  case others =>
    intro q hq
    rw [State.getPhys_advance, State.getPhys_setPhys, if_neg (by simpa using hq)]
    rfl

/-- A data-processing operation with a destination other than r15 writes its result and, with S, its flags (R275, R276). -/
theorem dataProcess_gives (op : DpOp) (sf : Bool) {rd : Reg} (n : Word) (x : Shifted) (s : State) (hrd : rd ≠ 15) :
    Gives (dataProcess op sf rd n x s) s s.nextAddr (op.status sf n x s.cpsr) [(s.phys rd, op.result n x.value s.cpsr.c)] [] := by
  obtain ⟨hm, ht⟩ := DpOp.status_mode_state op sf n x s.cpsr
  simp only [dataProcess, if_neg hrd, DpOp.eval_eq, ← DpOp.status_eq_ite]
  exact gives_setReg_advance s _ hm ht hrd

/-! ### The three forms of an operation (R275 to R293) -/

/-- The meaning of an operation with a destination, in its three forms. MOV and MVN do not use `R[Rn]`. -/
theorem DpOp.exec_instr {op : DpOp} (h : op ∉ [DpOp.tst, .teq, .cmp, .cmn]) (c : Cond) (sf : Bool) (rn rd : Reg) (o : Operand2)
    (s : State) : exec (op.instr c sf rn rd o) s = conditional c s (guarded (op.instr c sf rn rd o).check
      (dataProcess op sf rd (s.reg rn) (o.eval s) s)) := by
  cases op
  case tst | teq | cmp | cmn => simp at h
  all_goals cases o <;> rfl

/-- A register-shifted form none of whose registers is r15 is no UNPREDICTABLE combination (R178). -/
theorem shRegCheck_none {rn rd rs rm : Reg} (hn : rn ≠ 15) (hd : rd ≠ 15) (hs : rs ≠ 15) (hm : rm ≠ 15) :
    shRegCheck rn rd rs rm = none := by
  simp only [shRegCheck, firstOf, beq_false_of_ne hn, beq_false_of_ne hd, beq_false_of_ne hs, beq_false_of_ne hm]
  rfl

/-- The same of MOV and MVN, whose Should Be Zero field is 0 (R178, R180). -/
theorem shRegCheckZ_none {r rs rm : Reg} (hr : r ≠ 15) (hs : rs ≠ 15) (hm : rm ≠ 15) : shRegCheckZ 0 r rs rm = none := by
  simp only [shRegCheckZ, firstOf, beq_false_of_ne hr, beq_false_of_ne hs, beq_false_of_ne hm]
  rfl

/-- With the registers that `Allows` admits the operands are no UNPREDICTABLE combination (R178). -/
theorem DpOp.instr_check {op : DpOp} (h : op ∉ [DpOp.tst, .teq, .cmp, .cmn]) (c : Cond) (sf : Bool) {rn rd : Reg} {o : Operand2}
    (ho : o.Allows [rn, rd]) : (op.instr c sf rn rd o).check = none := by
  cases o with
  | imm | shImm => cases op <;> rfl
  | shReg rs sh rm =>
    obtain ⟨hs, hm, hregs⟩ := ho
    have hn : rn ≠ 15 := fun e => hregs (e ▸ List.mem_cons_self ..)
    have hd : rd ≠ 15 := fun e => hregs (e ▸ List.mem_cons_of_mem _ (List.mem_cons_self ..))
    cases op
    case tst | teq | cmp | cmn => simp at h
    case mov | mvn => exact shRegCheckZ_none hd hs hm
    all_goals exact shRegCheck_none hn hd hs hm

/-- An operation with a destination other than r15, its operands no UNPREDICTABLE combination, computes its result and flags. -/
theorem DpOp.instr_computes {op : DpOp} (h : op ∉ [DpOp.tst, .teq, .cmp, .cmn]) {c : Cond} (sf : Bool) {rn rd : Reg}
    {o : Operand2} {s : State} (hc : s.cpsr.passes c = true) (hrd : rd ≠ 15) (ho : o.Allows [rn, rd]) :
    Computes (op.instr c sf rn rd o) s (op.status sf (s.reg rn) (o.eval s) s.cpsr)
      [(s.phys rd, op.result (s.reg rn) (o.eval s).value s.cpsr.c)] := by
  rw [Computes, DpOp.exec_instr h, conditional_pass hc, DpOp.instr_check h c sf ho, guarded_none]
  exact dataProcess_gives op sf _ _ s hrd

/-- Settles O14: none of the six operations is a compare, so that each computes by its rule; the rules of result and flags
are `arithResult_add` and `arithResult_sub`. -/
theorem arithmeticGivesResultAndFlags : Obligations.ArithmeticGivesResultAndFlags := by
  unfold Obligations.ArithmeticGivesResultAndFlags
  intro op c sf rn rd o s hop hc hrd ho
  have hdst : ∀ op ∈ [DpOp.add, .adc, .sub, .sbc, .rsb, .rsc], op ∉ [DpOp.tst, .teq, .cmp, .cmn] := by decide
  exact DpOp.instr_computes (hdst op hop) sf hc hrd ho

end Sys2Proof.Machine

/-! PROOF. The depths of the write buffers and of the prefetch buffer (R67 to R69): what each operation on memory makes of the four
buffers. -/

namespace Sys2Proof.Machine

/-! ### Buffers that do not grow -/

/-- The buffers of `t` fit if those of `s` do. -/
def KeepsFit (s t : State) : Prop := s.BuffersFit → t.BuffersFit

theorem KeepsFit.refl (s : State) : KeepsFit s s := id

theorem KeepsFit.trans {s t u : State} (h : KeepsFit s t) (k : KeepsFit t u) : KeepsFit s u := fun x => k (h x)

/-- The four buffers have at most lost entries. -/
structure Shrinks (s t : State) : Prop where
  ahb : t.ahbWB.Sublist s.ahbWB
  itcm : t.itcmWB.Sublist s.itcmWB
  dtcm : t.dtcmWB.Sublist s.dtcmWB
  ipb : t.ipb.Sublist s.ipb

/-- A change that leaves the four buffers alone. -/
theorem Shrinks.of_eq {s t : State} (ha : t.ahbWB = s.ahbWB) (hi : t.itcmWB = s.itcmWB) (hd : t.dtcmWB = s.dtcmWB)
    (hp : t.ipb = s.ipb) : Shrinks s t := ⟨ha ▸ .refl _, hi ▸ .refl _, hd ▸ .refl _, hp ▸ .refl _⟩

theorem Shrinks.refl (s : State) : Shrinks s s := .of_eq rfl rfl rfl rfl

theorem Shrinks.trans {s t u : State} (h : Shrinks s t) (k : Shrinks t u) : Shrinks s u :=
  ⟨k.ahb.trans h.ahb, k.itcm.trans h.itcm, k.dtcm.trans h.dtcm, k.ipb.trans h.ipb⟩

/-- Losing entries keeps the depths. -/
theorem Shrinks.fit {s t : State} (h : Shrinks s t) : KeepsFit s t := fun ⟨h1, h2, h3, h4, h5⟩ =>
  ⟨h.ahb.length_le.trans h1, (h.ahb.filter _).length_le.trans h2, h.itcm.length_le.trans h3, h.dtcm.length_le.trans h4,
    h.ipb.length_le.trans h5⟩

/-- A TCM write buffer has at most lost entries. -/
theorem Shrinks.tcm {s t : State} (h : Shrinks s t) (m : Tcm) : (t.tcmWB m).Sublist (s.tcmWB m) := by
  cases m
  · exact h.itcm
  · exact h.dtcm

/-! ### The TCM write buffers (R128) -/

/-- A write to the RAM of a TCM changes no buffer. -/
theorem shrinks_putRam (s : State) (t : Tcm) (o n : Nat) (v : Word) : Shrinks s (s.putRam t o n v) := by
  rcases State.putRam_cases s t o n v with ⟨-, h⟩ | ⟨-, bs, -, h, -⟩ <;> rw [h] <;> cases t <;> exact .of_eq rfl rfl rfl rfl

theorem shrinks_setTcmWB {s : State} {t : Tcm} {l : List TcmEntry} (h : l.Sublist (s.tcmWB t)) :
    Shrinks s (s.setTcmWB t l) := by
  cases t
  · exact ⟨.refl _, h, .refl _, .refl _⟩
  · exact ⟨.refl _, .refl _, h, .refl _⟩

theorem shrinks_drainTcm (s : State) (t : Tcm) : Shrinks s (s.drainTcm t) := by
  unfold State.drainTcm
  cases h : s.tcmWB t with
  | nil => exact .refl s
  | cons e r => exact (shrinks_setTcmWB (h ▸ List.sublist_cons_self e r)).trans (shrinks_putRam _ _ _ _ _)

/-- A drain takes the oldest entry (R128). -/
theorem drainTcm_sublist_tail (s : State) (t : Tcm) : ((s.drainTcm t).tcmWB t).Sublist (s.tcmWB t).tail := by
  unfold State.drainTcm
  cases h : s.tcmWB t with
  | nil => dsimp only; rw [h]; exact .refl _
  | cons e r => simpa using (shrinks_putRam (s.setTcmWB t r) t e.off e.size e.data).tcm t

theorem shrinks_drainTcmAll (s : State) (t : Tcm) : Shrinks s (s.drainTcmAll t) := by
  have fold : ∀ (l : List TcmEntry) (s : State), Shrinks s (l.foldl (fun s e => s.putRam t e.off e.size e.data) s) := by
    intro l
    induction l with
    | nil => exact .refl
    | cons e r ih => exact fun s => (shrinks_putRam s _ _ _ _).trans (ih _)
  exact (shrinks_setTcmWB (List.nil_sublist _)).trans (fold _ _)

theorem shrinks_orderDrain (s : State) (t : Tcm) : Shrinks s (s.orderDrain t) := by
  unfold State.orderDrain
  split
  · exact shrinks_drainTcmAll s t
  · exact .refl s

/-- A TCM write buffer that fits holds at most two entries (R68). -/
theorem State.BuffersFit.tcm {s : State} (h : s.BuffersFit) (t : Tcm) : (s.tcmWB t).length ≤ 2 := by
  obtain ⟨-, -, hi, hd, -⟩ := h
  cases t
  · exact hi
  · exact hd

/-- One more entry fits a TCM write buffer that holds at most one. -/
theorem fit_appendTcm {s : State} {t : Tcm} (h : s.BuffersFit) (hl : (s.tcmWB t).length ≤ 1) (e : TcmEntry) :
    (s.setTcmWB t (s.tcmWB t ++ [e])).BuffersFit := by
  obtain ⟨h1, h2, h3, h4, h5⟩ := h
  have hlen : (s.tcmWB t ++ [e]).length ≤ 2 := by rw [List.length_append, List.length_singleton]; omega
  cases t
  · exact ⟨h1, h2, hlen, h4, h5⟩
  · exact ⟨h1, h2, h3, hlen, h5⟩

/-- A store enters a TCM write buffer; a full one has drained its oldest entry (R128). -/
theorem keepsFit_pushTcm (s : State) (t : Tcm) (e : TcmEntry) : KeepsFit s (s.pushTcm t e) := by
  intro h
  have h2 := h.tcm t
  unfold State.pushTcm
  dsimp only
  split
  · refine fit_appendTcm ((shrinks_drainTcm s t).fit h) ?_ e
    have htail := (drainTcm_sublist_tail s t).length_le
    rw [List.length_tail] at htail
    omega
  · exact fit_appendTcm h (by omega) e

/-! ### The AHB write buffer (R121, R122) -/

/-- A write that arrives on the AHB changes no buffer. -/
theorem shrinks_putAhb (s : State) (k : AhbKind) (a n : Nat) (v : Word) (p : Bool) : Shrinks s (s.putAhb k a n v p) := by
  unfold State.putAhb
  split
  · split <;> exact .of_eq rfl rfl rfl rfl
  · exact .of_eq rfl rfl rfl rfl

theorem shrinks_setAhbWB {s : State} {l : List AhbEntry} (h : l.Sublist s.ahbWB) : Shrinks s { s with ahbWB := l } :=
  ⟨h, .refl _, .refl _, .refl _⟩

theorem shrinks_drainAhb (s : State) : Shrinks s s.drainAhb := by
  unfold State.drainAhb
  cases h : s.ahbWB with
  | nil => exact .refl s
  | cons e r => exact (shrinks_setAhbWB (h ▸ List.sublist_cons_self e r)).trans (shrinks_putAhb _ _ _ _ _ _)

/-- A drain takes the oldest entry (R122). -/
theorem drainAhb_sublist_tail (s : State) : s.drainAhb.ahbWB.Sublist s.ahbWB.tail := by
  unfold State.drainAhb
  cases h : s.ahbWB with
  | nil => dsimp only; rw [h]; exact .refl _
  | cons e r => exact (shrinks_putAhb { s with ahbWB := r } _ _ _ _ _).ahb

theorem shrinks_putAhbs (l : List AhbEntry) : ∀ s : State,
    Shrinks s (l.foldl (fun s e => s.putAhb .buffered e.addr e.size e.data e.priv) s) := by
  induction l with
  | nil => exact .refl
  | cons e r ih => exact fun s => (shrinks_putAhb s _ _ _ _ _).trans (ih _)

theorem shrinks_drainAhbAll (s : State) : Shrinks s s.drainAhbAll :=
  (shrinks_setAhbWB (List.nil_sublist _)).trans (shrinks_putAhbs _ _)

/-- The AHB write buffer is empty after its drain (R123). -/
theorem drainAhbAll_ahbWB (s : State) : s.drainAhbAll.ahbWB = [] :=
  List.sublist_nil.mp (shrinks_putAhbs s.ahbWB { s with ahbWB := [] }).ahb

/-- Room for an entry, and for its address (R67, R121). -/
theorem ahbRoom_iff {l : List AhbEntry} {first : Bool} :
    ahbRoom l first = true ↔ l.length < 4 ∧ (first = true → (l.filter fun e => e.first).length < 2) := by
  cases first <;> simp [ahbRoom]

/-- Draining as many entries as the AHB write buffer holds makes room in it (R121). -/
theorem waitAhb_fit (first : Bool) (n : Nat) : ∀ s : State, s.BuffersFit → s.ahbWB.length ≤ n →
    (s.waitAhb first n).BuffersFit ∧ ahbRoom (s.waitAhb first n).ahbWB first = true := by
  induction n with
  | zero =>
    intro s h hl
    refine ⟨h, ?_⟩
    rw [State.waitAhb, List.length_eq_zero_iff.mp (Nat.le_zero.mp hl), ahbRoom_iff]
    exact ⟨by decide, fun _ => by decide⟩
  | succ n ih =>
    intro s h hl
    rw [State.waitAhb]
    split
    · exact ⟨h, ‹_›⟩
    · refine ih _ ((shrinks_drainAhb s).fit h) ?_
      have htail := (drainAhb_sublist_tail s).length_le
      rw [List.length_tail] at htail
      omega

/-- A buffered store enters the AHB write buffer once there is room (R121). -/
theorem keepsFit_pushAhb (s : State) (e : AhbEntry) : KeepsFit s (s.pushAhb e) := by
  intro h
  obtain ⟨⟨-, h2, h3, h4, h5⟩, hroom⟩ := waitAhb_fit e.first s.ahbWB.length s h le_rfl
  obtain ⟨hlen, hfirst⟩ := ahbRoom_iff.mp hroom
  refine ⟨?_, ?_, h3, h4, h5⟩
  · simp only [State.pushAhb, List.length_append, List.length_singleton]
    omega
  · simp only [State.pushAhb, List.filter_append, List.length_append]
    cases he : e.first
    · simpa [he] using h2
    · have hlt := hfirst he
      rw [he] at hlt
      simp only [he, List.filter_singleton, cond_true, List.length_singleton]
      omega

theorem shrinks_drainAll (s : State) : Shrinks s s.drainAll :=
  ((shrinks_drainAhbAll s).trans (shrinks_drainTcmAll _ _)).trans (shrinks_drainTcmAll _ _)

/-! ### Data accesses and the turns of the other agents -/

/-- The outcome of accesses that keep the depths. -/
def Acc.Fits {α : Type} (s : State) : Acc α → Prop
  | .ok _ t => KeepsFit s t
  | .abort t => KeepsFit s t
  | .fault _ => True
  | .refused _ => True

theorem Acc.Fits.after {α : Type} {s t : State} {a : Acc α} (h : KeepsFit s t) (k : a.Fits t) : a.Fits s := by
  cases a with
  | ok v u => exact KeepsFit.trans h k
  | abort u => exact KeepsFit.trans h k
  | fault f => trivial
  | refused r => trivial

theorem Acc.fits_bind {α β : Type} {s : State} {a : Acc α} {k : α → State → Acc β} (h : a.Fits s)
    (hk : ∀ v t, (k v t).Fits t) : (a.bind k).Fits s := by
  cases a with
  | ok v t => exact Acc.Fits.after h (hk v t)
  | abort t => exact h
  | fault f => trivial
  | refused r => trivial

theorem readData_fits (size : Nat) (priv swap : Bool) (a : Word) (s : State) : (readData size priv swap a s).Fits s := by
  unfold readData
  split
  · split
    · trivial
    · dsimp only
      split <;> exact (shrinks_orderDrain s _).fit
  · dsimp only
    split <;> exact (shrinks_drainAhbAll s).fit

theorem writeData_fits (size : Nat) (priv opened swap : Bool) (a v : Word) (s : State) :
    (writeData size priv opened swap a v s).Fits s := by
  unfold writeData
  dsimp only
  split
  · split
    · trivial
    · exact keepsFit_pushTcm s _ _
  · split
    · exact keepsFit_pushAhb s _
    · split <;> exact ((shrinks_drainAhbAll s).trans (shrinks_putAhb _ _ _ _ _ _)).fit

theorem loadData_fits (size : Nat) (priv swap : Bool) (a : Word) (s : State) : (loadData size priv swap a s).Fits s := by
  unfold loadData
  split
  · exact KeepsFit.refl s
  · split
    · exact readData_fits size priv swap a s
    · split
      · trivial
      · have hr : (readData size priv swap a s.popWatch).Fits s := readData_fits size priv swap a s.popWatch
        cases h : readData size priv swap a s.popWatch with
        | ok v s1 =>
          rw [h] at hr
          dsimp only
          split
          · exact hr
          · split <;> exact hr
        | abort s1 =>
          rw [h] at hr
          dsimp only
          split <;> exact hr
        | fault f => trivial
        | refused r => trivial

theorem storeData_fits (size : Nat) (priv opened swap : Bool) (a v : Word) (s : State) :
    (storeData size priv opened swap a v s).Fits s := by
  unfold storeData
  split
  · exact KeepsFit.refl s
  · split
    · exact writeData_fits size priv opened swap a v s
    · split
      · trivial
      · have hr : (writeData size priv opened swap a v s.popWatch).Fits s := writeData_fits size priv opened swap a v s.popWatch
        cases h : writeData size priv opened swap a v s.popWatch with
        | ok b s1 =>
          rw [h] at hr
          dsimp only
          split
          · exact hr
          · split
            · show KeepsFit s (if Config.freeBit s1.free then s1 else s.popWatch)
              split
              · exact hr
              · exact KeepsFit.refl s
            · exact hr
        | abort s1 =>
          rw [h] at hr
          dsimp only
          split <;> exact hr
        | fault f => trivial
        | refused r => trivial

/-- The prefetch buffer reads a word only below its depth (R69, R134). -/
theorem keepsFit_prefetchAhb (s : State) : KeepsFit s (prefetchAhb s) := by
  unfold prefetchAhb
  cases s.ipbNext with
  | none => exact .refl s
  | some wa =>
    dsimp only
    split
    next hd =>
      intro h
      obtain ⟨h1, h2, h3, h4, -⟩ := (shrinks_drainAhbAll s).fit h
      refine ⟨h1, h2, h3, h4, ?_⟩
      have hdepth : s.ipbDepth ≤ 4 := by unfold State.ipbDepth; split <;> decide
      simp only [Bool.and_eq_true, decide_eq_true_eq] at hd
      simp only [List.length_append, List.length_singleton]
      omega
    · exact .refl s

theorem keepsFit_fetchAhead (a : Word) (s : State) : KeepsFit s (fetchAhead a s) := by
  unfold fetchAhead
  dsimp only
  split
  · exact .refl s
  · split
    · split
      · exact .refl s
      · exact (shrinks_orderDrain s .itcm).fit
    · split
      · exact .refl s
      · exact (shrinks_drainAhbAll s).fit

theorem busTurn_fits {b : BusTurn} {s t : State} (h : busTurn b s = .next t) : KeepsFit s t := by
  cases b with
  | drainAhb => cases h; exact (shrinks_drainAhb s).fit
  | drainTcm m => cases h; exact (shrinks_drainTcm s m).fit
  | prefetchAhb => cases h; exact keepsFit_prefetchAhb s
  | fetchAhead a => cases h; exact keepsFit_fetchAhead a s
  | dropWord a => cases h; exact .refl s
  | dmaWrite a size data =>
    simp only [busTurn, dmaWrite] at h
    split at h
    · cases h
    · split at h
      · cases h
      · cases h
        refine KeepsFit.trans ?_ (shrinks_putRam _ _ _ _ _).fit
        split <;> exact KeepsFit.refl s
  | dmaRead a =>
    simp only [busTurn, dmaRead] at h
    split at h
    · cases h
    · cases h; exact .refl s
  | setPins p =>
    simp only [busTurn, setPins] at h
    split at h
    · cases h
    · cases h; exact .refl s
  | ahbWrite a b => cases h; exact .refl s
  | setAhbErrors l => cases h; exact .refl s
  | setTcmErrors m l => cases m <;> (cases h; exact .refl s)

theorem runTurns_fits (l : List BusTurn) : ∀ s : State, (runTurns l s).Fits s := by
  induction l with
  | nil => exact KeepsFit.refl
  | cons b r ih =>
    intro s
    refine Acc.fits_bind ?_ fun _ t => ih t
    cases h : busTurn b s with
    | next t => exact busTurn_fits h
    | fault f => trivial
    | refused x => trivial

theorem pause_fits (locked : Bool) (s : State) : (s.pause locked).Fits s := by
  unfold State.pause
  cases s.inside with
  | nil => exact KeepsFit.refl s
  | cons l r => exact Acc.Fits.after (t := { s with inside := r }) (.refl s) (runTurns_fits _ _)

theorem loadWords_fits (priv : Bool) (n : Nat) : ∀ (a : Word) (s : State), (loadWords priv n a s).Fits s := by
  induction n with
  | zero => exact fun _ s => KeepsFit.refl s
  | succ n ih =>
    intro a s
    refine Acc.fits_bind (pause_fits false s) fun _ s0 => ?_
    refine Acc.fits_bind (loadData_fits 4 priv false a s0) fun v t => ?_
    exact Acc.fits_bind (ih (a + 4) t) fun vs u => KeepsFit.refl u

theorem storeWords_fits (priv : Bool) (vs : List Word) : ∀ (opened : Bool) (a : Word) (s : State),
    (storeWords priv opened vs a s).Fits s := by
  induction vs with
  | nil => exact fun _ _ s => KeepsFit.refl s
  | cons v vs ih =>
    intro o a s
    refine Acc.fits_bind (pause_fits false s) fun _ s0 => ?_
    exact Acc.fits_bind (storeData_fits 4 priv o false a v s0) fun b t => ih b (a + 4) t

/-! ### The fetch (R134, R136) -/

theorem fetchDirect_shrinks {s t : State} {a : Word} {f : Fetched} (h : s.fetchDirect a = .ok f t) : Shrinks s t := by
  injection h with _ h
  subst h
  obtain ⟨ha, hi, hd, -⟩ := shrinks_drainAhbAll s
  refine ⟨ha, hi, hd, ?_⟩
  dsimp only
  split
  · exact .refl _
  · exact List.nil_sublist _

theorem fetchNow_shrinks {s t : State} {f : Fetched} (h : s.fetchNow = .ok f t) : Shrinks s t := by
  unfold State.fetchNow at h
  split at h
  · unfold State.fetchItcm at h
    split at h
    · cases h
    · cases takeWord_state h
      obtain ⟨ha, hi, hd, hp⟩ := shrinks_orderDrain s .itcm
      exact ⟨ha, hi, hd, hp⟩
  · unfold State.fetchAhb at h
    split at h
    next e r he =>
      split at h
      · injection h with _ h
        subst h
        refine ⟨.refl _, .refl _, .refl _, ?_⟩
        dsimp only
        rw [he]
        split
        · exact .refl _
        · exact List.sublist_cons_self e r
      · exact fetchDirect_shrinks h
    · exact fetchDirect_shrinks h

theorem shrinks_passWord (s : State) (p : PipeWord) : Shrinks s (s.passWord p) := by
  unfold State.passWord
  split
  · exact .of_eq rfl rfl rfl rfl
  · split
    · exact ⟨.refl _, .refl _, .refl _, List.nil_sublist _⟩
    · refine ⟨.refl _, .refl _, .refl _, ?_⟩
      dsimp only
      cases s.ipb with
      | nil => exact .refl _
      | cons e r =>
        dsimp only
        split
        · exact List.sublist_cons_self e r
        · exact .refl _

theorem coreFetch_shrinks {s t : State} {f : Fetched} (h : s.coreFetch = .ok f t) : Shrinks s t := by
  unfold State.coreFetch at h
  split at h
  · unfold State.fetchHeld at h
    split at h
    · obtain ⟨now, s1, h1, h2⟩ := Acc.bind_ok h
      obtain ⟨held, s2, -, h3⟩ := Acc.bind_ok h2
      injection h3 with _ h3
      subst h3
      exact fetchNow_shrinks h1
    · cases takeWord_state h
      exact shrinks_passWord s _
  · exact fetchNow_shrinks h

/-- A fetch by a replaced supply drains as any fetch does; it leaves the prefetch buffer as it is now if that supply had contents
of its own (R652). -/
theorem fetchBy_shrinks {s t : State} {r : Route} {f : Fetched} (h : s.fetchBy r = .ok f t) : Shrinks s t := by
  unfold State.fetchBy at h
  obtain ⟨g, u, h1, h2⟩ := Acc.bind_ok h
  injection h2 with _ h2
  subst h2
  split at h1
  next hr =>
    obtain ⟨ha, hi, hd, hp⟩ := coreFetch_shrinks h1
    rw [hr]
    exact ⟨ha, hi, hd, hp⟩
  next l hr =>
    obtain ⟨ha, hi, hd, -⟩ := coreFetch_shrinks h1
    rw [hr]
    exact ⟨ha, hi, hd, .refl _⟩

/-- The fetch of step 8 of R566 at most takes words from the buffers. -/
theorem nextFetch_shrinks {s t : State} {f : Fetched} (h : s.nextFetch = .ok f t) : Shrinks s t := by
  unfold State.nextFetch at h
  split at h
  · split at h
    · exact fetchBy_shrinks h
    · cases h
  · exact coreFetch_shrinks h

/-! ### Reset (R620) -/

theorem shrinks_resetTcm (m : Tcm) (l : List TcmEntry) : ∀ s : State, Shrinks s (resetTcm m s l) := by
  induction l with
  | nil => exact .refl
  | cons e r ih =>
    intro s
    have draw : Shrinks s { s with free := s.free + 1 } := .of_eq rfl rfl rfl rfl
    rw [resetTcm]
    split
    · exact (draw.trans (shrinks_putRam _ _ _ _ _)).trans (ih _)
    · exact draw.trans (ih _)

theorem shrinks_resetAhb (l : List AhbEntry) : ∀ s : State, Shrinks s (resetAhb s l) := by
  induction l with
  | nil => exact .refl
  | cons e r ih =>
    intro s
    have draw : Shrinks s { s with free := s.free + 1 } := .of_eq rfl rfl rfl rfl
    rw [resetAhb]
    split
    · exact (draw.trans (shrinks_putAhb _ _ _ _ _ _)).trans (ih _)
    · exact draw.trans (ih _)

/-- Reset leaves nothing in the write buffers (R620). -/
theorem resetBuffers_empty (s : State) :
    s.resetBuffers.ahbWB = [] ∧ s.resetBuffers.itcmWB = [] ∧ s.resetBuffers.dtcmWB = [] := by
  have h : Shrinks { s with ahbWB := [], itcmWB := [], dtcmWB := [] } s.resetBuffers :=
    ((shrinks_resetAhb s.ahbWB _).trans (shrinks_resetTcm .itcm s.itcmWB _)).trans (shrinks_resetTcm .dtcm s.dtcmWB _)
  exact ⟨List.sublist_nil.mp h.ahb, List.sublist_nil.mp h.itcm, List.sublist_nil.mp h.dtcm⟩

end Sys2Proof.Machine

/-! PROOF. What an instruction can do (R275 to R530), said once for all of them: its work on registers, flags and memory, then its
last act on the pc; or, in a privileged mode, a write of a status or a coprocessor register. -/

namespace Sys2Proof.Machine

/-! ### Aligned addresses (R37) -/

/-- `clearLow` takes the low bits away. -/
theorem clearLow_eq_shift (k : Nat) (x : Word) : clearLow k x = (x >>> k) <<< k := by
  ext i hi
  have h : (BitVec.ofNat 32 (2 ^ k - 1))[i] = decide (i < k) := by
    simp [← BitVec.getLsbD_eq_getElem, BitVec.getLsbD_ofNat, hi]
  by_cases hk : i < k
  · simp [clearLow, hk, h]
  · simp [clearLow, hk, h, Nat.le_of_not_lt hk, BitVec.getLsbD_eq_getElem, hi]

theorem clearLow_toNat (k : Nat) (x : Word) : (clearLow k x).toNat = x.toNat / 2 ^ k * 2 ^ k := by
  rw [clearLow_eq_shift, BitVec.toNat_shiftLeft, BitVec.toNat_ushiftRight, Nat.shiftRight_eq_div_pow, Nat.shiftLeft_eq]
  exact Nat.mod_eq_of_lt (Nat.lt_of_le_of_lt (Nat.div_mul_le_self _ _) x.isLt)

theorem clearLow_one_toNat (x : Word) : (clearLow 1 x).toNat = x.toNat / 2 * 2 := clearLow_toNat 1 x

theorem clearLow_two_toNat (x : Word) : (clearLow 2 x).toNat = x.toNat / 4 * 4 := clearLow_toNat 2 x

/-- The low two bits of a word. -/
theorem low_two_bits (v : Word) : (v.extractLsb' 0 2).toNat = v.toNat % 4 := by
  simp [BitVec.extractLsb'_toNat]

/-- A word that may become the pc in ARM state (R331). -/
theorem low_two_zero_iff (v : Word) : v.extractLsb' 0 2 = 0#2 ↔ v.toNat % 4 = 0 := by
  rw [← BitVec.toNat_inj, low_two_bits]
  rfl

/-- A word that an exchange refuses (R331). -/
theorem low_two_refused_iff (v : Word) : v.extractLsb' 0 2 = 0b10#2 ↔ v.toNat % 4 = 2 := by
  rw [← BitVec.toNat_inj, low_two_bits]
  rfl

theorem bit_zero_eq (v : Word) : v.getLsbD 0 = decide (v.toNat % 2 = 1) := by
  rw [BitVec.getLsbD, Nat.testBit_zero]

/-- An exchange that is not refused leaves a pc aligned for the state that bit 0 selects (R331). -/
theorem exchange_aligned {v : Word} (h : v.extractLsb' 0 2 ≠ 0b10#2) :
    (clearLow 1 v).toNat % (if v.getLsbD 0 then 2 else 4) = 0 := by
  rw [Ne, low_two_refused_iff] at h
  rw [clearLow_one_toNat, bit_zero_eq]
  split
  · omega
  next hb =>
    rw [decide_eq_true_eq] at hb
    omega

theorem branchOffset_aligned (off : BitVec 24) : (branchOffset off).toNat % 4 = 0 := by
  simp only [branchOffset, BitVec.toNat_shiftLeft, Nat.shiftLeft_eq]
  omega

theorem thumbOffset_aligned {n : Nat} (off : BitVec n) : (thumbOffset off).toNat % 2 = 0 := by
  simp only [thumbOffset, BitVec.toNat_shiftLeft, Nat.shiftLeft_eq]
  omega

/-- A word address is aligned in either state (R37). -/
theorem aligned_of_word {a : Word} (h : a.toNat % 4 = 0) (s : State) : a.toNat % s.instrLen = 0 := by
  unfold State.instrLen
  split
  · omega
  · exact h

/-- A halfword address is aligned in Thumb state (R37). -/
theorem aligned_of_thumb {a : Word} {s : State} (ht : s.cpsr.t = true) (h : a.toNat % 2 = 0) : a.toNat % s.instrLen = 0 := by
  rw [State.instrLen, ht, if_pos rfl]
  exact h

/-- A pc that is aligned for the state is even (R37). -/
theorem State.PcAligned.even {s : State} (h : s.PcAligned) : s.pc.toNat % 2 = 0 := by
  unfold State.PcAligned State.instrLen at h
  split at h
  · exact h
  · omega

/-- The target of an ARM branch is aligned as the pc is (R186, R37). -/
theorem branchTarget_aligned {s : State} (h : s.PcAligned) (off : BitVec 24) :
    (s.branchTarget off).toNat % s.instrLen = 0 := by
  have hoff := branchOffset_aligned off
  unfold State.PcAligned at h
  simp only [State.branchTarget, State.instrLen, BitVec.toNat_add] at h ⊢
  split at h
  next ht => rw [if_pos ht]; simp; omega
  next ht => rw [if_neg ht]; simp; omega

/-- The target of a Thumb branch is a halfword address (R203, R37). -/
theorem thumbTarget_aligned {s : State} (h : s.PcAligned) {n : Nat} (off : BitVec n) :
    (s.thumbTarget off).toNat % 2 = 0 := by
  have hoff := thumbOffset_aligned off
  have heven := h.even
  simp only [State.thumbTarget, BitVec.toNat_add]
  simp
  omega

/-- The target of BLX(1) is a halfword address (R334, R37). -/
theorem blxTarget_aligned {s : State} (h : s.PcAligned) (off : BitVec 24) (hb : Bool) :
    (s.branchTarget off + (if hb then 2 else 0)).toNat % 2 = 0 := by
  have hoff := branchOffset_aligned off
  have heven := h.even
  cases hb <;> simp [State.branchTarget, BitVec.toNat_add] <;> omega

/-! ### The work of an instruction before its last act -/

/-- What an instruction has done to the state before its last act: registers, memory and its buffers, DbgAbt, and what the other agents
did meanwhile (R141). The pc, the status registers, CP15 and the debug channel are as before; memory stays canonical and the buffers
within their depths. -/
structure Works (s u : State) : Prop where
  pc : u.pc = s.pc
  cpsr : u.cpsr = s.cpsr
  spsrs : u.spsrs = s.spsrs
  unrecoverable : u.unrecoverable = s.unrecoverable
  ctl : u.ctl = s.ctl
  cfg : u.cfg = s.cfg
  procId : u.procId = s.procId
  procIdWrites : u.procIdWrites = s.procIdWrites
  dcc : u.dcc = { s.dcc with dbgAbt := u.dcc.dbgAbt }
  wf : KeepsWf s u
  fit : KeepsFit s u

theorem Works.refl (s : State) : Works s s := ⟨rfl, rfl, rfl, rfl, rfl, rfl, rfl, rfl, rfl, .refl s, .refl s⟩

theorem Works.trans {s t u : State} (h : Works s t) (k : Works t u) : Works s u where
  pc := k.pc.trans h.pc
  cpsr := k.cpsr.trans h.cpsr
  spsrs := k.spsrs.trans h.spsrs
  unrecoverable := k.unrecoverable.trans h.unrecoverable
  ctl := k.ctl.trans h.ctl
  cfg := k.cfg.trans h.cfg
  procId := k.procId.trans h.procId
  procIdWrites := k.procIdWrites.trans h.procIdWrites
  dcc := by rw [k.dcc, h.dcc]
  wf := h.wf.trans k.wf
  fit := h.fit.trans k.fit

theorem Works.mode {s u : State} (h : Works s u) : u.cpsr.m = s.cpsr.m := by rw [h.cpsr]

theorem Works.thumb {s u : State} (h : Works s u) : u.cpsr.t = s.cpsr.t := by rw [h.cpsr]

theorem Works.instrLen {s u : State} (h : Works s u) : u.instrLen = s.instrLen := by
  rw [State.instrLen, h.thumb, State.instrLen]

/-- A transfer, with what the other agents do meanwhile, is such work. -/
theorem TransferFrame.works {s t : State} (h : TransferFrame s t) (k : KeepsFit s t) : Works s t := by
  obtain ⟨h1, -, -, h4, h5⟩ := h
  refine ⟨?_, ?_, ?_, ?_, ?_, ?_, ?_, ?_, h4, h5, k⟩ <;> rw [h1]

theorem works_setPhys (s : State) (p : PhysReg) (v : Word) : Works s (s.setPhys p v) :=
  ⟨rfl, rfl, rfl, rfl, rfl, rfl, rfl, rfl, rfl, .refl s, .refl s⟩

theorem works_setReg (s : State) (r : Reg) (v : Word) : Works s (s.setReg r v) := by
  unfold State.setReg
  split
  · exact .refl s
  · exact works_setPhys s _ v

theorem works_free (s : State) (n : Nat) : Works s { s with free := n } :=
  ⟨rfl, rfl, rfl, rfl, rfl, rfl, rfl, rfl, rfl, .refl s, .refl s⟩

theorem works_freeRegs (l : List PhysReg) : ∀ s : State, Works s (s.freeRegs l) := by
  induction l with
  | nil => exact .refl
  | cons p r ih => exact fun s => ((works_setPhys s p _).trans (works_free _ _)).trans (ih _)

theorem works_writeRegs (place : Reg → PhysReg) (rs : List Reg) :
    ∀ (vs : List Word) (s : State), Works s (s.writeRegs place rs vs) := by
  induction rs with
  | nil => exact fun _ s => .refl s
  | cons r rs ih =>
    intro vs s
    cases vs with
    | nil => exact .refl s
    | cons v vs =>
      refine Works.trans ?_ (ih vs _)
      split
      · exact .refl s
      · exact works_setPhys s _ v

/-- The write-back of a transfer, if it has one. -/
theorem works_back (s : State) (rn : Reg) (wb : Option Word) :
    Works s (match wb with | some w => s.setReg rn w | none => s) := by
  cases wb with
  | none => exact .refl s
  | some w => exact works_setReg s rn w

/-- The outcome of accesses that do such work. -/
def Acc.Works {α : Type} (s : State) : Acc α → Prop
  | .ok _ t => Machine.Works s t
  | .abort t => Machine.Works s t
  | .fault _ => True
  | .refused _ => True

theorem Acc.works_of_moved {α : Type} {s : State} {a : Acc α} (h : a.Moved s) (k : a.Fits s) : a.Works s := by
  cases a with
  | ok v t => exact TransferFrame.works h k
  | abort t => exact TransferFrame.works h k
  | fault f => trivial
  | refused r => trivial

theorem loadData_works (size : Nat) (priv swap : Bool) (a : Word) (s : State) : (loadData size priv swap a s).Works s :=
  Acc.works_of_moved (loadData_framed size priv swap a s).moved (loadData_fits size priv swap a s)

theorem storeData_works (size : Nat) (priv opened swap : Bool) (a v : Word) (s : State) :
    (storeData size priv opened swap a v s).Works s :=
  Acc.works_of_moved (storeData_framed size priv opened swap a v s).moved (storeData_fits size priv opened swap a v s)

theorem loadWords_works (priv : Bool) (n : Nat) (a : Word) (s : State) : (loadWords priv n a s).Works s :=
  Acc.works_of_moved (loadWords_moved priv n a s) (loadWords_fits priv n a s)

theorem storeWords_works (priv opened : Bool) (vs : List Word) (a : Word) (s : State) :
    (storeWords priv opened vs a s).Works s :=
  Acc.works_of_moved (storeWords_moved priv vs opened a s) (storeWords_fits priv vs opened a s)

/-! ### The last act, and the effect of an instruction -/

/-- The last act of an instruction: it advances, branches, exchanges the state, returns from an exception, takes one, or halts the
core. A branch keeps the pc aligned under the condition `ok`, which is that the code is one of the state it runs in. -/
inductive Ends (ok : Prop) (u : State) : State → Prop
  | advance (hazard : Bool) : Ends ok u { u.advance with bankHazard := hazard }
  | branch (a : Word) (h : ok → u.PcAligned → a.toNat % u.instrLen = 0) : Ends ok u (u.branchTo a)
  | exchange (t : Bool) (a : Word) (h : u.PcAligned → a.toNat % (if t then 2 else 4) = 0) : Ends ok u ((u.setT t).branchTo a)
  | returns (v : Word) (t : State) (h : exceptionReturn v u = .next t) : Ends ok u t
  | exception (e : Exc) : Ends ok u (u.takeException e)
  | abort : Ends ok u u.dataAbort
  | halt : Ends ok u u.enterDebug

/-- What only a privileged mode can write: the control byte of the CPSR, an SPSR, CP15 and the debug channel (R43, R48, R230,
R260). -/
inductive SystemWrite (s : State) : State → Prop
  | cpsr (p : Psr) (h : p.t = s.cpsr.t) : SystemWrite s (s.putCpsr p).advance
  | spsr (e : ExcMode) (p : Psr) : SystemWrite s (s.setSpsr e p).advance
  | cp15 (r : Cp15) (v : Word) (t : State) (h : cp15Put r v s = .next t) : SystemWrite s t.advance
  | channel (d : Dcc) (n : Nat) (r : Reg) (v : Word) : SystemWrite s (State.setReg { s with dcc := d, free := n } r v).advance

/-- What an instruction makes of a state. It works and makes its last act; or it sets flags, works and advances; or it makes a write
that only a privileged mode can make. -/
inductive Effect (ok : Prop) (s : State) : State → Prop
  | program (u t : State) (work : Works s u) (last : Ends ok u t) : Effect ok s t
  | flags (p : Psr) (u : State) (only : p = { s.cpsr with n := p.n, z := p.z, c := p.c, v := p.v, q := p.q })
      (work : Works { s with cpsr := p } u) : Effect ok s u.advance
  | system (t : State) (priv : s.priv = true) (write : SystemWrite s t) : Effect ok s t

/-- A result that goes on, goes on with an effect of an instruction. -/
def Effects (ok : Prop) (s : State) : Result → Prop
  | .next t => Effect ok s t
  | .fault _ => True
  | .refused _ => True

section
variable {ok : Prop} {s u : State}

theorem Works.advances (h : Works s u) : Effect ok s u.advance := .program u _ h (.advance false)

theorem effects_conditional {c : Cond} {r : Result} (h : Effects ok s r) : Effects ok s (conditional c s r) := by
  unfold conditional
  split
  · exact h
  · exact (Works.refl s).advances

theorem effects_guarded {o : Option Unpred} {r : Result} (h : Effects ok s r) : Effects ok s (guarded o r) := by
  cases o with
  | none => exact h
  | some _ => trivial

theorem effects_bankedModeOnly {r : Result} (h : Effects ok s r) : Effects ok s (bankedModeOnly s r) := by
  unfold bankedModeOnly
  split
  · trivial
  · exact h

/-- An instruction that made an access goes on from the work of that access. -/
theorem effects_finish {α : Type} {a : Acc α} {f : State → State} {k : α → State → Result} (ha : a.Works s)
    (hf : ∀ u, Works s u → Effect ok s (f u)) (hk : ∀ v u, Works s u → Effects ok s (k v u)) : Effects ok s (a.finish f k) := by
  cases a with
  | ok v t => exact hk v t ha
  | abort t => exact hf t ha
  | fault f => trivial
  | refused r => trivial

theorem Works.aborts (h : Works s u) : Effect ok s u.dataAbort := .program u _ h .abort

theorem Works.takes (h : Works s u) (e : Exc) : Effect ok s (u.takeException e) := .program u _ h (.exception e)

/-! ### Writes of the pc -/

theorem effects_writePcExchange (h : Works s u) (v : Word) : Effects ok s (writePcExchange v u) := by
  unfold writePcExchange
  split
  · trivial
  next hv => exact .program u _ h (.exchange _ _ fun _ => exchange_aligned hv)

theorem effects_loadPc (h : Works s u) (v : Word) : Effects ok s (loadPc v u) := by
  unfold loadPc
  split
  · exact effects_writePcExchange h v
  · refine .program u _ h (.branch _ fun _ _ => ?_)
    split
    next ht => exact aligned_of_thumb ht (by rw [clearLow_one_toNat]; omega)
    next => exact aligned_of_word (by rw [clearLow_two_toNat]; omega) u

theorem effects_writePcArm (h : Works s u) (v : Word) : Effects ok s (writePcArm v u) := by
  unfold writePcArm
  split
  next hv => exact .program u _ h (.branch _ fun _ _ => aligned_of_word ((low_two_zero_iff v).mp hv) u)
  next => trivial

theorem effects_exceptionReturn (h : Works s u) (v : Word) : Effects ok s (exceptionReturn v u) := by
  cases hr : exceptionReturn v u with
  | next t => exact .program u t h (.returns v t hr)
  | fault f => trivial
  | refused r => trivial

/-- A Thumb write of the pc, in Thumb state (R331). -/
theorem effects_writePcThumb (hok : ok → s.cpsr.t = true) (h : Works s u) (v : Word) : Effects ok s (writePcThumb v u) :=
  .program u _ h (.branch _ fun o _ => aligned_of_thumb (h.thumb.trans (hok o)) (by rw [clearLow_one_toNat]; omega))

/-! ### Data processing and multiplies -/

theorem effects_dataProcess (op : DpOp) (sf : Bool) (rd : Reg) (n : Word) (x : Shifted) :
    Effects ok s (dataProcess op sf rd n x s) := by
  unfold dataProcess
  dsimp only
  split
  · split
    · exact effects_exceptionReturn (.refl s) _
    · exact effects_writePcArm (.refl s) _
  · refine .flags _ _ ?_ (works_setReg _ _ _)
    split
    · rw [eval_status]
    · rfl

theorem effects_dataCompare (op : DpOp) (n : Word) (x : Shifted) : Effects ok s (dataCompare op n x s) :=
  .flags _ _ (by rw [eval_status]) (.refl _)

theorem effects_multiplyResult (sf : Bool) (rd : Reg) (r : Word) : Effects ok s (multiplyResult sf rd r s) := by
  refine .flags _ _ ?_ (works_setReg _ _ _)
  cases sf <;> rfl

theorem effects_longResult (sf : Bool) (rdHi rdLo : Reg) (r : BitVec 64) : Effects ok s (longResult sf rdHi rdLo r s) := by
  refine .flags _ _ ?_ ((works_setReg _ _ _).trans (works_setReg _ _ _))
  cases sf <;> rfl

theorem effects_stickyResult (rd : Reg) (r : Word) (sat : Bool) : Effects ok s (stickyResult rd r sat s) :=
  .flags _ _ rfl (works_setReg _ _ _)

theorem effects_hiResult (hok : ok → s.cpsr.t = true) (rd : Reg) (v : Word) : Effects ok s (hiResult rd v s) := by
  unfold hiResult
  split
  · exact effects_writePcThumb hok (.refl s) v
  · exact (works_setReg s rd v).advances

/-! ### Loads and stores -/

theorem effects_loadSingle (k : LoadKind) (priv : Bool) (rn rd : Reg) (x : Address) :
    Effects ok s (loadSingle k priv rn rd x s) := by
  unfold loadSingle
  split
  · trivial
  · split
    · trivial
    · refine effects_finish (loadData_works _ _ _ _ s) (fun _ => Works.aborts) fun v u h => ?_
      have hb := h.trans (works_back u rn x.wb)
      dsimp only
      split
      · exact effects_loadPc hb _
      · exact (hb.trans (works_setReg _ _ _)).advances

theorem effects_storeSingle (size : Nat) (priv : Bool) (rn : Reg) (x : Address) (v : Word) :
    Effects ok s (storeSingle size priv rn x v s) := by
  unfold storeSingle
  split
  · trivial
  · exact effects_finish (storeData_works _ _ _ _ _ _ s) (fun _ => Works.aborts) fun _ u h =>
      (h.trans (works_back u rn x.wb)).advances

theorem effects_thumbLoad (k : LoadKind) (rd : LReg) (a : Word) : Effects ok s (thumbLoad k rd a s) := by
  unfold thumbLoad
  split
  · trivial
  · exact effects_loadSingle ..

theorem effects_thumbStore (size : Nat) (rd : LReg) (a : Word) : Effects ok s (thumbStore size rd a s) := by
  unfold thumbStore
  split
  · trivial
  · exact effects_storeSingle ..

theorem Works.abortsLoad (h : Works s u) (base : Option PhysReg) (place : Reg → PhysReg) (rs : List Reg) :
    Effect ok s (abortedLoad base place rs u) := (h.trans (works_freeRegs _ u)).aborts

theorem effects_loadDouble (rn rd : Reg) (x : Address) : Effects ok s (loadDouble rn rd x s) := by
  unfold loadDouble
  dsimp only
  split
  · split
    · exact (Works.refl s).abortsLoad _ _ _
    · trivial
  · exact effects_finish (loadWords_works _ _ _ s) (fun _ h => h.abortsLoad _ _ _) fun vs u h =>
      ((h.trans (works_back u rn x.wb)).trans (works_writeRegs _ _ _ _)).advances

theorem effects_storeDouble (rn rd : Reg) (x : Address) : Effects ok s (storeDouble rn rd x s) := by
  unfold storeDouble
  split
  · split
    · exact (Works.refl s).aborts
    · trivial
  · exact effects_finish (storeWords_works _ _ _ _ s) (fun _ => Works.aborts) fun _ u h =>
      (h.trans (works_back u rn x.wb)).advances

theorem effects_loadMultiple {place : Reg → PhysReg} {hazard : Bool} {rn : Reg} {list : BitVec 16} {start : Word}
    {wb : Option Word} {wpc : Word → State → Result} (hpc : ∀ v u, Works s u → Effects ok s (wpc v u)) :
    Effects ok s (loadMultiple place hazard rn list start wb wpc s) := by
  unfold loadMultiple
  refine effects_finish (loadWords_works _ _ _ s) (fun _ h => h.abortsLoad _ _ _) fun vs u h => ?_
  have hb := (h.trans (works_writeRegs place (listed list) vs u)).trans (works_back _ rn wb)
  dsimp only
  split
  · exact hpc _ _ hb
  · exact .program _ _ hb (.advance hazard)

theorem effects_storeMultiple (value : Reg → Word) (draw hazard : Bool) (rn : Reg) (list : BitVec 16) (start : Word)
    (wb : Option Word) : Effects ok s (storeMultiple value draw hazard rn list start wb s) := by
  unfold storeMultiple
  have pre : ∀ {α : Type} {a : Acc α} {n : Nat}, a.Works { s with free := n } → a.Works s := by
    intro α a n h
    cases a with
    | ok v t => exact (works_free s n).trans h
    | abort t => exact (works_free s n).trans h
    | fault f => trivial
    | refused r => trivial
  exact effects_finish (pre (storeWords_works _ _ _ _ _)) (fun _ => Works.aborts) fun _ u h =>
    .program _ _ (h.trans (works_back u rn wb)) (.advance hazard)

end

end Sys2Proof.Machine

/-! PROOF. A status register as a word (R40, R341): its bits, and what a write under a mask leaves. -/

namespace Sys2Proof.Machine

/-- The layout of R40: the reserved bits are 0. -/
theorem Psr.toWord_getLsbD (p : Psr) {j : Nat} (hj : j < 32) : p.toWord.getLsbD j =
    if j = 31 then p.n else if j = 30 then p.z else if j = 29 then p.c else if j = 28 then p.v else if j = 27 then p.q
    else if j = 7 then p.i else if j = 6 then p.f else if j = 5 then p.t else if j < 5 then p.m.getLsbD j else false := by
  have h : p.toWord.getLsbD j = BitVec.getLsbD (w := 1 + 1 + 1 + 1 + 1 + 19 + 1 + 1 + 1 + 5) p.toWord j := rfl
  rw [h, Psr.toWord]
  iterate 9 rw [BitVec.getLsbD_append]
  interval_cases j <;> simp

/-- A bit of a status register under a mask (R341). -/
theorem masked_getLsbD (w mask v : Word) {j : Nat} (hj : j < 32) :
    ((w &&& ~~~mask) ||| (v &&& mask)).getLsbD j = if mask.getLsbD j then v.getLsbD j else w.getLsbD j := by
  rw [BitVec.getLsbD_or, BitVec.getLsbD_and, BitVec.getLsbD_and, BitVec.getLsbD_not, decide_eq_true hj]
  cases mask.getLsbD j <;> simp

/-- A mask without bit 5 leaves the T bit (R341). -/
theorem Psr.write_t (p : Psr) {mask : Word} (v : Word) (h : mask.getLsbD 5 = false) : (p.write mask v).t = p.t := by
  have hb : (p.write mask v).t = _ := masked_getLsbD p.toWord mask v (j := 5) (by decide)
  rw [hb, h, p.toWord_getLsbD (by decide)]
  rfl

/-- A mask without the control byte leaves the mode, T and the interrupt mask bits (R341). -/
theorem Psr.write_control (p : Psr) {mask : Word} (v : Word) (h : ∀ j < 8, mask.getLsbD j = false) :
    p.write mask v = { p with n := (p.write mask v).n, z := (p.write mask v).z, c := (p.write mask v).c,
                              v := (p.write mask v).v, q := (p.write mask v).q } := by
  have hb : ∀ j < 8, ((p.toWord &&& ~~~mask) ||| (v &&& mask)).getLsbD j = p.toWord.getLsbD j := fun j hj => by
    rw [masked_getLsbD _ _ _ (by omega), h j hj]
    rfl
  have hi : (p.write mask v).i = p.i := (hb 7 (by decide)).trans (by rw [p.toWord_getLsbD (by decide)]; rfl)
  have hf : (p.write mask v).f = p.f := (hb 6 (by decide)).trans (by rw [p.toWord_getLsbD (by decide)]; rfl)
  have ht : (p.write mask v).t = p.t := p.write_t v (h 5 (by decide))
  have hm : (p.write mask v).m = p.m := by
    apply BitVec.eq_of_getLsbD_eq
    intro j hj
    have hw : p.toWord.getLsbD j = p.m.getLsbD j := by
      rw [p.toWord_getLsbD (by omega)]
      simp only [show j ≠ 31 ∧ j ≠ 30 ∧ j ≠ 29 ∧ j ≠ 28 ∧ j ≠ 27 ∧ j ≠ 7 ∧ j ≠ 6 ∧ j ≠ 5 by omega, hj, if_true, if_false]
    rw [← hw, ← hb j (by omega)]
    simp only [Psr.write, Psr.ofWord, BitVec.getLsbD_extractLsb', hj, decide_true, Bool.true_and, Nat.zero_add]
  generalize hq : p.write mask v = q at *
  obtain ⟨⟩ := q
  simp_all

end Sys2Proof.Machine

/-! PROOF. The status register, coprocessor and swap instructions, and with them what every instruction can do. -/

namespace Sys2Proof.Machine

/-- User mode has no SPSR (R48). -/
theorem priv_of_excMode {s : State} {e : ExcMode} (h : excMode s.cpsr.m = some e) : s.priv = true := by
  by_contra hp
  have hm : s.cpsr.m = modeUser := by simpa [State.priv, privileged] using hp
  rw [hm] at h
  cases h

section
variable {ok : Prop} {s u : State}

/-- Work leaves the pc and its alignment as they are. -/
theorem Works.pcAligned_iff (h : Works s u) : u.PcAligned ↔ s.PcAligned := by
  rw [State.PcAligned, h.pc, h.instrLen, State.PcAligned]

theorem Works.branches (h : Works s u) (a : Word) (ha : ok → s.PcAligned → a.toNat % s.instrLen = 0) :
    Effect ok s (u.branchTo a) :=
  .program u _ h (.branch a fun o hp => by rw [h.instrLen]; exact ha o (h.pcAligned_iff.mp hp))

theorem Works.exchanges (h : Works s u) (t : Bool) (a : Word) (ha : s.PcAligned → a.toNat % (if t then 2 else 4) = 0) :
    Effect ok s ((u.setT t).branchTo a) :=
  .program u _ h (.exchange t a fun hp => ha (h.pcAligned_iff.mp hp))

theorem effects_swapData (k : LoadKind) (rn rd rm : Reg) : Effects ok s (swapData k rn rd rm s) := by
  unfold swapData
  dsimp only
  refine effects_finish (loadData_works _ _ _ _ s) (fun _ => Works.aborts) fun data u h => ?_
  have second : ((u.swapPause (s.reg rn)).bind fun _ s2 =>
      storeData k.size s.priv false true (s.reg rn) (s.reg rm) s2).Works u :=
    Acc.works_of_moved
      (Acc.moved_bind (pause_moved _ u) fun _ t => (storeData_framed _ _ _ _ _ _ t).moved)
      (Acc.fits_bind (pause_fits _ u) fun _ t => storeData_fits _ _ _ _ _ _ t)
  revert second
  generalize (u.swapPause (s.reg rn)).bind _ = a
  intro second
  cases a with
  | ok v t => exact ((h.trans second).trans (works_setReg _ _ _)).advances
  | abort t => exact (h.trans second).aborts
  | fault f => trivial
  | refused r => trivial

theorem effects_readStatus (r : Bool) (rd : Reg) : Effects ok s (readStatus r rd s) := by
  unfold readStatus
  split
  · exact (works_setReg s rd _).advances
  · trivial

/-- A mask within `userMask` does not touch the control byte (R341). -/
theorem userMask_control (fm : BitVec 4) : ∀ j < 8, (fieldMask fm &&& userMask).getLsbD j = false := by
  intro j hj
  have hm : ∀ j < 8, userMask.getLsbD j = false := by decide
  rw [BitVec.getLsbD_and, hm j hj, Bool.and_false]

/-- A mask within `privMask` does not touch the T bit (R341). -/
theorem privMask_t (fm : BitVec 4) : (fieldMask fm &&& privMask).getLsbD 5 = false := by
  rw [BitVec.getLsbD_and, show privMask.getLsbD 5 = false from by decide, Bool.and_false]

theorem effects_writeStatus (r : Bool) (fm : BitVec 4) (v : Word) : Effects ok s (writeStatus r fm v s) := by
  unfold writeStatus
  split
  · split
    · trivial
    next e he => exact .system _ (priv_of_excMode he) (.spsr e _)
  · split
    next hp =>
      split
      · trivial
      · exact .system _ hp (.cpsr _ (Psr.write_t _ v (privMask_t fm)))
    · exact .flags _ _ (Psr.write_control _ v (userMask_control fm)) (.refl _)

theorem effect_breakpoint : Effect ok s (breakpoint s) := by
  unfold breakpoint
  split
  · exact .program s _ (.refl s) .halt
  · exact (Works.refl s).takes _

theorem effects_unconditionalCp (cp : BitVec 4) : Effects ok s (unconditionalCp cp s) := by
  unfold unconditionalCp
  split
  · trivial
  · exact (Works.refl s).takes .undef

theorem effects_privilegedOnly {r : Result} (h : s.priv = true → Effects ok s r) : Effects ok s (privilegedOnly s r) := by
  unfold privilegedOnly
  split
  · exact h ‹_›
  · exact (Works.refl s).takes .undef

theorem effects_cp14Access {r : Result} (h : s.priv = true → Effects ok s r) : Effects ok s (cp14Access s r) := by
  unfold cp14Access
  split
  · exact h ‹_›
  · trivial

theorem effects_cp15Write (hp : s.priv = true) (r : Cp15) (v : Word) : Effects ok s (cp15Write r v s) := by
  unfold cp15Write
  cases h : cp15Put r v s with
  | next t => exact .system _ hp (.cp15 r v t h)
  | fault f => trivial
  | refused x => trivial

theorem effects_mcr14 (hp : s.priv = true) (r : Cp14) (v : Word) : Effects ok s (cp14Write r v s) := by
  have channel : ∀ (d : Dcc) (n : Nat), Effect ok s (State.advance { s with dcc := d, free := n }) :=
    fun d n => .system _ hp (.channel d n 15 0)
  cases r with
  | status => trivial
  | data =>
    simp only [cp14Write]
    split
    · exact channel _ _
    · exact channel _ s.free
  | monitorStatus =>
    simp only [cp14Write]
    split
    · exact channel _ s.free
    · trivial

theorem effects_mrc14 (hp : s.priv = true) (r : Cp14) (rd : Reg) :
    Effect ok s ((cp14Read r s).2.setReg rd (cp14Read r s).1).advance := by
  cases r with
  | status => exact .system _ hp (.channel s.dcc s.free rd _)
  | data =>
    simp only [cp14Read]
    split
    · exact .system _ hp (.channel _ s.free rd _)
    · exact .system _ hp (.channel s.dcc _ rd _)
  | monitorStatus => exact .system _ hp (.channel s.dcc s.free rd _)

end

/-! ### The effect of every instruction -/

/-- An instruction of the Thumb set: its code is a halfword (R170). -/
def isThumb (i : Instr) : Bool :=
  match encode i with
  | .arm _ => false
  | .thumb _ => true

/-- An instruction runs in the state that its code belongs to. -/
def InState (i : Instr) (s : State) : Prop := isThumb i = true → s.cpsr.t = true

/-- What every instruction can do. -/
theorem exec_effects (i : Instr) (s : State) : Effects (InState i s) s (exec i s) := by
  cases i
  case andImm | andShImm | eorImm | eorShImm | subImm | subShImm | rsbImm | rsbShImm | addImm | addShImm | adcImm | adcShImm |
      sbcImm | sbcShImm | rscImm | rscShImm | orrImm | orrShImm | bicImm | bicShImm =>
    exact effects_conditional (effects_dataProcess ..)
  case andShReg | eorShReg | subShReg | rsbShReg | addShReg | adcShReg | sbcShReg | rscShReg | orrShReg | movImm | movShImm |
      movShReg | bicShReg | mvnImm | mvnShImm | mvnShReg =>
    exact effects_conditional (effects_guarded (effects_dataProcess ..))
  case tstImm | tstShImm | tstShReg | teqImm | teqShImm | teqShReg | cmpImm | cmpShImm | cmpShReg | cmnImm | cmnShImm | cmnShReg =>
    exact effects_conditional (effects_guarded (effects_dataCompare ..))
  case tLslImm | tLsrImm | tAsrImm | tAddReg | tSubReg | tAddImm3 | tSubImm3 | tMovImm | tAddImm8 | tSubImm8 | tAnd | tEor |
      tLslReg | tLsrReg | tAsrReg | tAdc | tSbc | tRor | tNeg | tOrr | tBic | tMvn =>
    exact effects_dataProcess ..
  case tCmpImm | tTst | tCmpReg | tCmn => exact effects_dataCompare ..
  case tCmpHi => exact effects_guarded (effects_dataCompare ..)
  case tAddHi | tMovHi => exact effects_guarded (effects_hiResult (fun o => o rfl) ..)
  case tIncSp | tDecSp => exact (works_setReg s 13 _).advances
  case tAddPc | tAddSp => exact effects_hiResult (fun o => o rfl) ..
  case clz => exact effects_conditional (effects_guarded (works_setReg s _ _).advances)
  case mul | mla | smulwY | smulXY => exact effects_conditional (effects_guarded (effects_multiplyResult ..))
  case tMul => exact effects_guarded (effects_multiplyResult ..)
  case umull | umlal | smull | smlal | smlalXY => exact effects_conditional (effects_guarded (effects_longResult ..))
  case smlaXY | smlawY | qadd | qsub | qdadd | qdsub => exact effects_conditional (effects_guarded (effects_stickyResult ..))
  case b c off => exact effects_conditional ((Works.refl s).branches _ fun _ h => branchTarget_aligned h off)
  case bl c off => exact effects_conditional ((works_setReg s _ _).branches _ fun _ h => branchTarget_aligned h off)
  case blxImm hb off => exact (works_setReg s _ _).exchanges true _ fun h => blxTarget_aligned h off hb
  case bx => exact effects_conditional (effects_guarded (effects_writePcExchange (.refl s) _))
  case blxReg => exact effects_conditional (effects_guarded (effects_writePcExchange (works_setReg s _ _) _))
  case tBx => exact effects_guarded (effects_writePcExchange (.refl s) _)
  case tBlxReg => exact effects_guarded (effects_writePcExchange (works_setReg s _ _) _)
  case tBCond c off =>
    exact effects_conditional ((Works.refl s).branches _ fun o h => aligned_of_thumb (o rfl) (thumbTarget_aligned h off))
  case tB off => exact (Works.refl s).branches _ fun o h => aligned_of_thumb (o rfl) (thumbTarget_aligned h off)
  case tBlPrefix => exact (works_setReg s _ _).advances
  case tBlSuffix =>
    exact (works_setReg s _ _).branches _ fun o _ => aligned_of_thumb (o rfl) (by rw [clearLow_one_toNat]; omega)
  case tBlxSuffix => exact (works_setReg s _ _).exchanges false _ fun _ => by rw [clearLow_two_toNat]; simp
  case mrs => exact effects_conditional (effects_guarded (effects_readStatus ..))
  case msrReg | msrImm => exact effects_conditional (effects_guarded (effects_writeStatus ..))
  case swi | undefMedia | undefMisc => exact effects_conditional ((Works.refl s).takes _)
  case tSwi | tUndef => exact (Works.refl s).takes _
  case bkpt | tBkpt => exact effect_breakpoint
  case ldrImm | ldrReg | ldrbImm | ldrbReg | ldrtImm | ldrtReg | ldrbtImm | ldrbtReg | ldrhImm | ldrhReg | ldrsbImm | ldrsbReg |
      ldrshImm | ldrshReg =>
    exact effects_conditional (effects_guarded (effects_loadSingle ..))
  case strImm | strReg | strbImm | strbReg | strtImm | strtReg | strbtImm | strbtReg | strhImm | strhReg =>
    exact effects_conditional (effects_guarded (effects_storeSingle ..))
  case tLdrPc | tLdrsb | tLdrReg | tLdrhReg | tLdrbReg | tLdrsh | tLdrImm | tLdrbImm | tLdrhImm | tLdrSp =>
    exact effects_thumbLoad ..
  case tStrReg | tStrhReg | tStrbReg | tStrImm | tStrbImm | tStrhImm | tStrSp => exact effects_thumbStore ..
  case ldrdImm | ldrdReg => exact effects_conditional (effects_guarded (effects_loadDouble ..))
  case strdImm | strdReg => exact effects_conditional (effects_guarded (effects_storeDouble ..))
  case pldImm => exact (Works.refl s).advances
  case pldReg => exact effects_guarded (Works.refl s).advances
  case ldm1 => exact effects_conditional (effects_guarded (effects_loadMultiple fun v _ h => effects_loadPc h v))
  case ldm2 =>
    exact effects_conditional (effects_guarded (effects_bankedModeOnly (effects_loadMultiple fun v _ h => effects_loadPc h v)))
  case ldm3 =>
    exact effects_conditional (effects_guarded (effects_bankedModeOnly
      (effects_loadMultiple fun v _ h => effects_exceptionReturn h v)))
  case tPop | tLdmia => exact effects_guarded (effects_loadMultiple fun v _ h => effects_loadPc h v)
  case stm1 => exact effects_conditional (effects_guarded (effects_storeMultiple ..))
  case stm2 => exact effects_conditional (effects_guarded (effects_bankedModeOnly (effects_storeMultiple ..)))
  case tPush | tStmia => exact effects_guarded (effects_storeMultiple ..)
  case swp | swpb => exact effects_conditional (effects_guarded (effects_swapData ..))
  case cdp | ldc | stc | mcr | mrc | mcrr | mrrc => exact effects_conditional ((Works.refl s).takes .undef)
  case cdp2 | ldc2 | stc2 | mcr2 | mrc2 => exact effects_unconditionalCp _
  case mcr15 c o1 crn rd o2 crm =>
    refine effects_conditional (effects_privilegedOnly fun hp => effects_guarded ?_)
    split
    · exact effects_cp15Write hp _ _
    · trivial
  case mrc15 c o1 crn rd o2 crm =>
    refine effects_conditional (effects_privilegedOnly fun _ => effects_guarded ?_)
    split
    · exact (works_setReg s rd _).advances
    · trivial
  case mcr14 c o1 crn rd o2 crm =>
    refine effects_conditional (effects_cp14Access fun hp => effects_guarded ?_)
    split
    · exact effects_mcr14 hp _ _
    · trivial
  case mrc14 c o1 crn rd o2 crm =>
    refine effects_conditional (effects_cp14Access fun hp => effects_guarded ?_)
    split
    · exact effects_mrc14 hp _ rd
    · trivial

end Sys2Proof.Machine

/-! PROOF. What every step keeps (R37, R45, R46, R67 to R69, R75): one relation between a state and the next one, shown for the
instructions. -/

namespace Sys2Proof.Machine

/-! ### The relation -/

/-- The four invariants of `s` hold of `t`: canonical memory, a legal mode, an aligned pc, and buffers within their depths. -/
structure Keeps (s t : State) : Prop where
  mem : s.MemWf → t.MemWf
  mode : s.ModeOk → t.ModeOk
  pc : s.PcAligned → t.PcAligned
  fit : s.BuffersFit → t.BuffersFit

theorem Keeps.refl (s : State) : Keeps s s := ⟨id, id, id, id⟩

theorem Keeps.trans {s t u : State} (h : Keeps s t) (k : Keeps t u) : Keeps s u :=
  ⟨k.mem ∘ h.mem, k.mode ∘ h.mode, k.pc ∘ h.pc, k.fit ∘ h.fit⟩

/-- A change that leaves the pc and the CPSR alone. -/
theorem Keeps.of_eq {s t : State} (hpc : t.pc = s.pc) (hc : t.cpsr = s.cpsr) (hu : t.unrecoverable = s.unrecoverable)
    (mem : KeepsWf s t) (fit : KeepsFit s t) : Keeps s t where
  mem := mem
  mode := by rw [State.ModeOk, State.ModeOk, hc, hu]; exact id
  pc := by rw [State.PcAligned, State.PcAligned, State.instrLen, State.instrLen, hpc, hc]; exact id
  fit := fit

theorem Works.keeps {s u : State} (h : Works s u) : Keeps s u where
  mem := h.wf
  mode := by rw [State.ModeOk, State.ModeOk, h.mode, h.unrecoverable]; exact id
  pc := h.pcAligned_iff.mpr
  fit := h.fit

/-! ### The pc and the mode -/

/-- A change of the flags alone. -/
theorem keeps_flags {s : State} {p : Psr} (h : p = { s.cpsr with n := p.n, z := p.z, c := p.c, v := p.v, q := p.q }) :
    Keeps s { s with cpsr := p } where
  mem := id
  mode := by unfold State.ModeOk; rw [h]; exact id
  pc := by unfold State.PcAligned State.instrLen; rw [h]; exact id
  fit := id

/-- The next instruction in sequence is aligned as this one is (R38). -/
theorem keeps_advance (s : State) : Keeps s s.advance where
  mem := id
  mode := id
  pc := by
    unfold State.PcAligned
    show s.pc.toNat % s.instrLen = 0 → (s.pc + BitVec.ofNat 32 s.instrLen).toNat % s.instrLen = 0
    rw [BitVec.toNat_add, BitVec.toNat_ofNat]
    unfold State.instrLen
    split <;> omega
  fit := id

theorem keeps_branchTo {s : State} {a : Word} (h : s.PcAligned → a.toNat % s.instrLen = 0) : Keeps s (s.branchTo a) :=
  ⟨id, id, h, id⟩

theorem keeps_exchange {s : State} {t : Bool} {a : Word} (h : s.PcAligned → a.toNat % (if t then 2 else 4) = 0) :
    Keeps s ((s.setT t).branchTo a) := ⟨id, id, h, id⟩

/-- A write of the whole CPSR together with a pc for it; an illegal mode makes the core unrecoverable (R46). -/
theorem keeps_putCpsr_pc {s : State} {p : Psr} {a : Word} (h : a.toNat % (if p.t then 2 else 4) = 0) :
    Keeps s { s.putCpsr p with pc := a } where
  mem := id
  mode := fun _ => by
    show (s.unrecoverable || !legalMode p.m) = true ∨ legalMode p.m = true
    cases legalMode p.m <;> simp
  pc := fun _ => h
  fit := id

theorem keeps_exceptionReturn {v : Word} {s t : State} (h : exceptionReturn v s = .next t) : Keeps s t := by
  obtain ⟨e, -, ⟨ht, rfl⟩ | ⟨ht, hv, rfl⟩⟩ := exceptionReturn_cases h
  · have k : Keeps s { s.putCpsr (s.spsr e) with pc := clearLow 1 v } :=
      keeps_putCpsr_pc (by rw [ht, if_pos rfl, clearLow_one_toNat]; omega)
    exact ⟨k.mem, k.mode, k.pc, k.fit⟩
  · have k : Keeps s { s.putCpsr (s.spsr e) with pc := v } :=
      keeps_putCpsr_pc (by rw [ht, if_neg Bool.false_ne_true]; exact (low_two_zero_iff v).mp hv)
    exact ⟨k.mem, k.mode, k.pc, k.fit⟩

/-- An exception enters a legal mode at a word address (R571). -/
theorem keeps_takeException (s : State) (e : Exc) : Keeps s (s.takeException e) where
  mem := by
    unfold State.MemWf
    rw [State.takeException_itcm, State.takeException_dtcm, State.takeException_ahb]
    exact id
  mode := fun _ => .inr (by rw [State.takeException_cpsr]; exact exc_mode_legal e)
  pc := fun _ => by
    rw [State.PcAligned, State.takeException_pc]
    exact aligned_of_word (vector_aligned s e) _
  fit := by
    unfold State.BuffersFit
    rw [State.takeException_ahbWB, State.takeException_itcmWB, State.takeException_dtcmWB, State.takeException_ipb]
    exact id

theorem keeps_haltAt (s : State) (view : Word) : Keeps s (s.haltAt view) := .of_eq rfl rfl rfl (.refl s) (.refl s)

theorem keeps_enterDebug (s : State) : Keeps s s.enterDebug := .of_eq rfl rfl rfl (.refl s) (.refl s)

theorem keeps_enterWatched (s : State) : Keeps s s.enterWatched := by
  unfold State.enterWatched
  split
  · exact .refl s
  · exact keeps_haltAt s _

theorem keeps_dataAbort (s : State) : Keeps s s.dataAbort := by
  rcases dataAbort_cases s with ⟨-, h⟩ | ⟨-, -, h⟩ | ⟨-, -, h⟩ <;> rw [h]
  · exact keeps_advance s
  · exact keeps_takeException s _
  · exact (keeps_takeException s _).trans (keeps_haltAt _ _)

/-! ### Instructions -/

theorem Ends.keeps {ok : Prop} {u t : State} (h : Ends ok u t) (hok : ok) : Keeps u t := by
  cases h with
  | advance hazard =>
    obtain ⟨h1, h2, h3, h4⟩ := keeps_advance u
    exact ⟨h1, h2, h3, h4⟩
  | branch a h => exact keeps_branchTo (h hok)
  | exchange b a h => exact keeps_exchange h
  | returns v t h => exact keeps_exceptionReturn h
  | exception e => exact keeps_takeException u e
  | abort => exact keeps_dataAbort u
  | halt => exact keeps_enterDebug u

theorem works_drainAll (s : State) : Works s s.drainAll := by
  have ha := (ahbFrame_drainAhbAll s).transfer (keepsWf_drainAhbAll s)
  have hi := (tcmFrame_drainTcmAll s.drainAhbAll .itcm).transfer (keepsWf_drainTcmAll _ .itcm)
  have hd := (tcmFrame_drainTcmAll (s.drainAhbAll.drainTcmAll .itcm) .dtcm).transfer (keepsWf_drainTcmAll _ .dtcm)
  exact ((ha.trans hi).trans hd).works (shrinks_drainAll s).fit

theorem keeps_putConfig (s : State) (v : Word) : Keeps s (s.putConfig v) := by
  refine .of_eq rfl rfl rfl (.refl s) (Shrinks.fit ⟨.refl _, .refl _, .refl _, ?_⟩)
  show List.Sublist (if (ConfigCtl.ofWord v).b then [] else s.ipb) s.ipb
  split
  · exact List.nil_sublist _
  · exact .refl _

theorem keeps_cp15Put {r : Cp15} {v : Word} {s t : State} (h : cp15Put r v s = .next t) : Keeps s t := by
  cases r with
  | deviceId | tcmSize => cases h
  | control =>
    obtain ⟨-, h⟩ := guarded_cases h
    cases h
    exact .of_eq rfl rfl rfl (.refl s) (.refl s)
  | waitForInterrupt =>
    cases h
    exact (works_drainAll s).keeps.trans (.of_eq rfl rfl rfl (.refl _) (.refl _))
  | drainBuffers =>
    cases h
    exact (works_drainAll s).keeps.trans (.of_eq rfl rfl rfl (.refl _) (.refl _))
  | traceProcId =>
    cases h
    exact .of_eq rfl rfl rfl (.refl s) (.refl s)
  | config =>
    obtain ⟨-, h⟩ := guarded_cases h
    cases h
    exact keeps_putConfig s v

theorem keeps_setSpsr (s : State) (e : ExcMode) (p : Psr) : Keeps s (s.setSpsr e p) := by
  cases e <;> exact .of_eq rfl rfl rfl (.refl s) (.refl s)

theorem SystemWrite.keeps {s t : State} (h : SystemWrite s t) : Keeps s t := by
  cases h with
  | cpsr p ht =>
    refine Keeps.trans ?_ (keeps_advance _)
    refine ⟨id, fun _ => ?_, ?_, id⟩
    · show (s.unrecoverable || !legalMode p.m) = true ∨ legalMode p.m = true
      cases legalMode p.m <;> simp
    · show s.pc.toNat % (if s.cpsr.t then 2 else 4) = 0 → s.pc.toNat % (if p.t then 2 else 4) = 0
      rw [ht]
      exact id
  | spsr e p => exact (keeps_setSpsr s e p).trans (keeps_advance _)
  | cp15 r v t h => exact (keeps_cp15Put h).trans (keeps_advance _)
  | channel d n r v =>
    have hd : Keeps s { s with dcc := d, free := n } := .of_eq rfl rfl rfl (.refl s) (.refl s)
    exact (hd.trans (works_setReg _ r v).keeps).trans (keeps_advance _)

/-- An instruction that runs in the state of its code keeps the invariants. -/
theorem exec_keeps {i : Instr} {s t : State} (hi : InState i s) (h : exec i s = .next t) : Keeps s t := by
  have he := exec_effects i s
  rw [h] at he
  cases he with
  | program u t work last => exact work.keeps.trans (last.keeps hi)
  | flags p u only work => exact ((keeps_flags only).trans work.keeps).trans (keeps_advance u)
  | system t priv write => exact write.keeps

end Sys2Proof.Machine

/-! PROOF. The code belongs to the state (R170): what the decoder brings for it runs in that state. -/

namespace Sys2Proof.Machine

/-- A branch of the decode tree that brings ARM instructions only. -/
theorem arm_ite {p : Prop} [Decidable p] {a b : Option Instr} (ha : a.any isThumb = false) (hb : b.any isThumb = false) :
    (if p then a else b).any isThumb = false := by
  split
  · exact ha
  · exact hb

theorem arm_some_ite {p : Prop} [Decidable p] {a b : Instr} (ha : (some a).any isThumb = false)
    (hb : (some b).any isThumb = false) : (some (if p then a else b)).any isThumb = false := by
  split
  · exact ha
  · exact hb

/-- The decode tree of the ARM words with a condition brings ARM instructions only: so does each of its leaves. -/
theorem decodeCond_arm (c : Cond) (w : Word) : (decodeCond c w).any isThumb = false := by
  repeat' first | apply arm_ite | apply arm_some_ite
  all_goals rfl

theorem decodeUncond_arm (w : Word) : (decodeUncond w).any isThumb = false := by
  repeat' apply arm_ite
  all_goals rfl

/-- What the decoder brings for a code of the state runs in the state of its code. -/
theorem decode_inState {s : State} {bits : Word} {i : Instr} (h : decode (s.code bits) = .ok i) : InState i s := by
  intro hi
  unfold State.code at h
  cases ht : s.cpsr.t with
  | true => rfl
  | false =>
    rw [ht, if_neg Bool.false_ne_true] at h
    have harm : (decodeArm bits).any isThumb = false := by
      unfold decodeArm
      split
      · exact decodeCond_arm _ _
      · exact decodeUncond_arm _
    simp only [decode] at h
    split at h
    next j hj =>
      injection h with h
      rw [hj, Option.any_some, h, hi] at harm
      exact harm.symm
    next => cases h

end Sys2Proof.Machine

/-! PROOF. What every step keeps (R37, R45, R46, R67 to R69, R75): the fetch, the turns of the core, Reset and the turns of the other
agents; the statements O51, O52, O53 and O54. -/

namespace Sys2Proof.Machine

/-! ### From the instruction to the step -/

/-- A result that goes on keeps the invariants of `s`. -/
def Kept (s : State) : Result → Prop
  | .next t => Keeps s t
  | .fault _ => True
  | .refused _ => True

theorem Keeps.then {s t : State} (h : Keeps s t) {r : Result} (k : Kept t r) : Kept s r := by
  cases r with
  | next u => exact Keeps.trans h k
  | fault f => trivial
  | refused x => trivial

theorem kept_of_next {s : State} {r : Result} (h : ∀ t, r = .next t → Keeps s t) : Kept s r := by
  cases r with
  | next t => exact h t rfl
  | fault f => trivial
  | refused x => trivial

theorem kept_mapNext {s : State} {r : Result} {f : State → State} (h : Kept s r) (hf : ∀ t, Keeps t (f t)) :
    Kept s (mapNext f r) := by
  cases r with
  | next t => exact Keeps.trans h (hf t)
  | fault x => trivial
  | refused x => trivial

/-- An execution of instructions that keeps the invariants where each runs in the state of its code. -/
def Run (run : Instr → State → Result) : Prop := ∀ i s, InState i s → Kept s (run i s)

theorem run_exec : Run exec := fun _ _ hi => kept_of_next fun _ => exec_keeps hi

theorem kept_runCode {run : Instr → State → Result} (hrun : Run run) (bits : Word) (s : State) : Kept s (runCode run bits s) := by
  unfold runCode
  split
  · split
    · trivial
    · exact keeps_advance s
  next i hi =>
    split
    · trivial
    · exact hrun i s (decode_inState hi)

/-- A fetch leaves the pc and the CPSR, and takes from the buffers only. -/
theorem keeps_nextFetch {s t : State} {f : Fetched} (h : s.nextFetch = .ok f t) : Keeps s t := by
  obtain ⟨h1, h2⟩ := nextFetch_framed h
  have hfit := (nextFetch_shrinks h).fit
  refine .of_eq ?_ ?_ ?_ h2 hfit <;> rw [h1]

theorem keeps_dropMatch (s : State) : Keeps s s.dropMatch := ⟨id, id, id, id⟩

theorem kept_takeBreakpoint (f : Fetched) (s : State) : Kept s (takeBreakpoint f s) := by
  unfold takeBreakpoint
  split
  · exact keeps_enterDebug s
  · split
    · trivial
    · exact (keeps_takeException s _).trans (.of_eq rfl rfl rfl (.refl _) (.refl _))

/-! ### A fetch is not aborted: its error comes with the word (R143, R544) -/

/-- The access is not a Data Abort. -/
def Acc.Unaborted {α : Type} : Acc α → Prop
  | .ok _ _ => True
  | .abort _ => False
  | .fault _ => True
  | .refused _ => True

theorem Acc.unaborted_bind {α β : Type} {a : Acc α} {k : α → State → Acc β} (h : a.Unaborted)
    (hk : ∀ v t, (k v t).Unaborted) : (a.bind k).Unaborted := by
  cases a with
  | ok v t => exact hk v t
  | abort t => exact h
  | fault f => trivial
  | refused r => trivial

theorem takeWord_unaborted (s : State) (p : PipeWord) : (s.takeWord p).Unaborted := by
  unfold State.takeWord
  split <;> trivial

theorem fetchNow_unaborted (s : State) : s.fetchNow.Unaborted := by
  unfold State.fetchNow
  split
  · unfold State.fetchItcm
    split
    · trivial
    · exact takeWord_unaborted _ _
  · unfold State.fetchAhb
    split
    · split <;> trivial
    · trivial

theorem coreFetch_unaborted (s : State) : s.coreFetch.Unaborted := by
  unfold State.coreFetch
  split
  · unfold State.fetchHeld
    split
    · exact Acc.unaborted_bind (fetchNow_unaborted s) fun _ _ => Acc.unaborted_bind (takeWord_unaborted _ _) fun _ _ => trivial
    · exact takeWord_unaborted _ _
  · exact fetchNow_unaborted s

theorem nextFetch_unaborted (s : State) : s.nextFetch.Unaborted := by
  unfold State.nextFetch
  split
  · split
    · unfold State.fetchBy
      refine Acc.unaborted_bind ?_ fun _ _ => trivial
      split <;> exact coreFetch_unaborted _
    · trivial
  · exact coreFetch_unaborted s

theorem kept_runInstruction {run : Instr → State → Result} (hrun : Run run) (s : State) : Kept s (runInstruction run s) := by
  unfold runInstruction
  cases hf : s.nextFetch with
  | ok f t =>
    refine (keeps_nextFetch hf).then ?_
    simp only [Acc.finish]
    split
    · exact (keeps_dropMatch t).trans (keeps_takeException _ _)
    · split
      · exact (keeps_dropMatch t).then (kept_takeBreakpoint f _)
      · exact kept_runCode hrun f.bits t
  | abort t => exact absurd (nextFetch_unaborted s) (by rw [hf]; exact id)
  | fault f => trivial
  | refused r => trivial

/-! ### The turn of the core (R566) -/

theorem keeps_takeInterrupt (e : Exc) (s : State) : Keeps s (takeInterrupt e s) :=
  (keeps_takeException s e).trans ⟨id, id, id, id⟩

theorem kept_interruptOrRun {run : Instr → State → Result} (hrun : Run run) (s : State) : Kept s (interruptOrRun run s) := by
  unfold interruptOrRun
  split
  · exact keeps_takeInterrupt _ s
  · exact kept_runInstruction hrun s

theorem keeps_enterPending (s : State) : Keeps s s.enterPending := by
  unfold State.enterPending
  split
  · split
    · exact .refl s
    · exact keeps_takeInterrupt _ s
  · exact .refl s

theorem keeps_endWatched (s : State) : Keeps s s.endWatched := by
  unfold State.endWatched
  split
  · exact .refl s
  · exact (keeps_enterPending s).trans (keeps_enterWatched _)

theorem keeps_unlatched (s : State) : Keeps s s.unlatched := ⟨id, id, id, id⟩

theorem kept_boundary {run : Instr → State → Result} (hrun : Run run) (s : State) : Kept s (boundary run s) := by
  unfold boundary
  split
  · trivial
  split
  · trivial
  split
  · exact kept_mapNext ((keeps_unlatched s).then (kept_interruptOrRun hrun _)) keeps_endWatched
  · exact kept_interruptOrRun hrun s

theorem keeps_standby (s : State) (b : Bool) : Keeps s { s with standby := b } := ⟨id, id, id, id⟩

theorem kept_stalled {run : Instr → State → Result} (hrun : Run run) (s : State) : Kept s (stalled run s) := by
  unfold stalled
  split
  · exact kept_boundary hrun s
  split
  · exact keeps_standby s false
  · exact .refl s

theorem keeps_settle (s : State) : Keeps s s.settle := by
  unfold State.settle
  split
  · exact .refl s
  · exact ⟨id, id, id, id⟩

theorem kept_coreTurnWith {run : Instr → State → Result} (hrun : Run run) (s : State) : Kept s (coreTurnWith run s) := by
  unfold coreTurnWith
  split
  · exact .refl s
  split
  · exact keeps_enterDebug s
  refine (keeps_settle s).then ?_
  dsimp only
  split
  · exact kept_stalled hrun _
  split
  · exact .refl _
  · exact (keeps_standby _ false).then (kept_boundary hrun _)

/-! ### Reset (R620) -/

/-- Free values in registers are a change of the registers and of the counter of free values. -/
theorem freeRegs_framed (l : List PhysReg) : ∀ s : State,
    s.freeRegs l = { s with regs := (s.freeRegs l).regs, free := (s.freeRegs l).free } := by
  induction l with
  | nil => exact fun _ => rfl
  | cons p r ih =>
    intro s
    rw [State.freeRegs, ih]
    rfl

/-- A warm reset leaves the write buffers empty, whatever was pending (R620). -/
theorem warmReset_empty (s : State) : s.warmReset.ahbWB = [] ∧ s.warmReset.itcmWB = [] ∧ s.warmReset.dtcmWB = [] := by
  have h := freeRegs_framed allPhys s.resetBuffers
  obtain ⟨ha, hi, hd⟩ := resetBuffers_empty s
  refine ⟨Eq.trans ?_ ha, Eq.trans ?_ hi, Eq.trans ?_ hd⟩ <;> unfold State.warmReset <;> dsimp only <;> rw [h]

/-- Reset brings Supervisor mode, ARM state and the pc at a word, and empties the buffers (R620, R621). -/
theorem keeps_warmReset (s : State) : Keeps s s.warmReset where
  mem := fun h => (works_freeRegs allPhys s.resetBuffers).wf ((resetBuffers_framed s).2 h)
  mode := fun _ => .inr rfl
  pc := fun _ => by
    show (if (s.resetBuffers.freeRegs allPhys).params.vinithi then (0xFFFF0000 : Word) else 0).toNat % 4 = 0
    split <;> rfl
  fit := fun _ => by
    obtain ⟨ha, hi, hd⟩ := warmReset_empty s
    unfold State.BuffersFit
    rw [ha, hi, hd]
    exact ⟨Nat.zero_le _, Nat.zero_le _, Nat.zero_le _, Nat.zero_le _, Nat.zero_le _⟩

theorem kept_firstStores (k : Nat) (values : List Word) (start : Word) (s : State) :
    Kept s (firstStores k values start s) := by
  unfold firstStores
  have h := storeWords_works s.priv false (values.take k) start s
  cases hr : storeWords s.priv false (values.take k) start s with
  | ok v t => rw [hr] at h; exact Works.keeps h
  | abort t => rw [hr] at h; exact Works.keeps h
  | fault f => trivial
  | refused r => trivial

theorem kept_storesIf {b : Bool} {k : Nat} {values : List Word} {start : Word} {s t : State} (h : Keeps s t) :
    Kept s (if b then firstStores k values start t else .next s) := by
  split
  · exact h.then (kept_firstStores k values start t)
  · exact .refl s

/-- The state inside an instruction keeps the invariants: its stores do. -/
theorem run_storesDone (k : Nat) : Run (storesDone k) := by
  intro i s _
  unfold storesDone
  split
  · exact kept_storesIf (works_free s _).keeps
  · exact kept_storesIf (.refl s)
  · exact kept_storesIf (.refl s)
  · exact kept_storesIf (.refl s)
  · exact kept_storesIf (.refl s)
  · exact kept_storesIf (.refl s)
  · exact Keeps.refl s

theorem kept_resetCut (k : Nat) (s : State) : Kept s (resetCut k s) := by
  unfold resetCut
  have relatch (t : State) : Keeps t (t.relatch s.dbg.wptLatch) := ⟨id, id, id, id⟩
  exact kept_mapNext ((keeps_unlatched s).then (kept_coreTurnWith (run_storesDone k) _))
    fun t => (relatch t).trans (keeps_warmReset _)

/-! ### The turns of the other agents -/

theorem kept_busTurn (b : BusTurn) (s : State) : Kept s (busTurn b s) :=
  kept_of_next fun _ h => (busTurn_framed h).works (busTurn_fits h) |>.keeps

theorem kept_debuggerTurn {ok : Bool} {s t : State} (h : Keeps s t) : Kept s (debuggerTurn ok s t) := by
  unfold debuggerTurn
  split
  · exact h
  · trivial

theorem kept_haltedTurn {s t : State} (h : Keeps s t) : Kept s (haltedTurn s t) := by
  unfold haltedTurn
  split
  · exact kept_debuggerTurn (.refl s)
  · exact kept_debuggerTurn h

theorem keeps_debugReset (s : State) : Keeps s (debugReset s) := ⟨id, id, id, id⟩

theorem keeps_show (s : State) (v : Word) : Keeps s (s.show v) := ⟨id, id, id, id⟩

theorem kept_debugControl (monitor request takesBkpt : Bool) (s : State) : Kept s (debugControl monitor request takesBkpt s) := by
  unfold debugControl
  dsimp only
  split
  · trivial
  · split
    · trivial
    · exact kept_debuggerTurn ⟨id, id, id, id⟩

theorem kept_debugLoad (a : Word) (size : Nat) (s : State) : Kept s (debugLoad a size s) := by
  unfold debugLoad
  split
  · split
    · exact .refl s
    · have h := Acc.works_of_moved (readData_framed size s.priv false a s).moved (readData_fits size s.priv false a s)
      cases hr : readData size s.priv false a s with
      | ok v t => rw [hr] at h; exact (Works.keeps h).trans (keeps_show t v)
      | abort t => rw [hr] at h; exact (Works.keeps h).trans ⟨id, id, id, id⟩
      | fault f => trivial
      | refused r => trivial
  · trivial

theorem kept_debugStore (a : Word) (size : Nat) (v : Word) (s : State) : Kept s (debugStore a size v s) := by
  unfold debugStore
  split
  · split
    · exact .refl s
    · have h := Acc.works_of_moved (writeData_framed size s.priv false false a v s).moved
        (writeData_fits size s.priv false false a v s)
      cases hr : writeData size s.priv false false a v s with
      | ok v t => rw [hr] at h; exact Works.keeps h
      | abort t => rw [hr] at h; exact Works.keeps h
      | fault f => trivial
      | refused r => trivial
  · trivial

theorem kept_debugRead (d : DebugSource) (s : State) : Kept s (debugRead d s) := by
  cases d with
  | reg r => exact kept_haltedTurn (keeps_show s _)
  | pc => exact kept_haltedTurn (keeps_show s _)
  | cpsr => exact kept_haltedTurn (keeps_show s _)
  | spsr e => exact kept_haltedTurn (keeps_show s _)
  | mem a size => exact kept_debugLoad a size s
  | control => exact kept_debuggerTurn ⟨id, id, id, id⟩
  | status => exact kept_debuggerTurn ⟨id, id, id, id⟩

/-- An address cleared for a state is aligned for it (R37). -/
theorem clearLow_aligned (t : Bool) (a : Word) : (clearLow (if t then 1 else 2) a).toNat % (if t then 2 else 4) = 0 := by
  cases t
  · exact (clearLow_two_toNat a).symm ▸ Nat.mul_mod_left _ 4
  · exact (clearLow_one_toNat a).symm ▸ Nat.mul_mod_left _ 2

theorem alignPc_aligned (s : State) (a : Word) : (s.alignPc a).toNat % s.instrLen = 0 := clearLow_aligned s.cpsr.t a

theorem kept_debugCpsr (v : Word) (s : State) : Kept s (debugCpsr v s) :=
  kept_haltedTurn ((keeps_settle s).trans (keeps_putCpsr_pc (clearLow_aligned _ _)))

theorem kept_chain15 (w : BitVec 39) (s : State) : Kept s (chain15 w s) := by
  unfold chain15
  split
  · split
    · trivial
    · split
      · exact kept_of_next fun _ => keeps_cp15Put
      · split
        · exact keeps_show s _
        · trivial
  · trivial

theorem kept_debugRestart (a : Option Word) (s : State) : Kept s (debugRestart a s) := by
  refine kept_debuggerTurn ?_
  cases a with
  | some a => exact ⟨id, id, fun _ => alignPc_aligned s a, id⟩
  | none => exact ⟨id, id, id, id⟩

/-- What a scanned-in instruction leaves has its pc or, if it wrote none, the aligned pc of before (R604). -/
theorem keeps_scanned (s t : State) : Keeps t (s.scanned t) := by
  unfold State.scanned
  dsimp only
  split
  · exact ⟨id, id, id, id⟩
  · exact ⟨id, id, fun _ => alignPc_aligned t s.pc, id⟩

/-- r15 of a scanned-in instruction is aligned as what the debugger sees is (R604). -/
theorem pcSeen_aligned (s : State) : (s.pcSeen - (if s.cpsr.t then 4 else 8)).toNat % s.instrLen = 0 := by
  have h := alignPc_aligned s s.dbg.pcView
  unfold State.pcSeen
  rw [BitVec.toNat_sub]
  generalize (s.alignPc s.dbg.pcView).toNat = n at h ⊢
  unfold State.instrLen at h ⊢
  cases ht : s.cpsr.t <;> simp only [ht, if_true, if_false, Bool.false_eq_true, BitVec.reduceToNat] at h ⊢ <;> omega

theorem kept_debugExec (bits : Word) (s : State) : Kept s (debugExec bits s) := by
  unfold debugExec
  split
  · split
    · exact .refl s
    · have hpc : Keeps s.settle { s.settle with pc := s.pcSeen - (if s.cpsr.t then 4 else 8), nonseq := false } := by
        refine ⟨id, id, fun _ => ?_, id⟩
        have h := pcSeen_aligned s
        unfold State.PcAligned State.instrLen at *
        rw [State.settle_cpsr]
        exact h
      exact kept_mapNext (((keeps_settle s).trans hpc).then (kept_runCode run_exec bits _)) fun t => keeps_scanned _ t
  · trivial

theorem kept_takeTurn (t : Turn) (s : State) : Kept s (takeTurn t s) := by
  cases t with
  | core => exact kept_coreTurnWith run_exec s
  | bus b => exact kept_busTurn b s
  | reset => exact keeps_warmReset s
  | resetCut k => exact kept_resetCut k s
  | debugReset => exact keeps_debugReset s
  | dccTake => exact kept_debuggerTurn ⟨id, id, id, id⟩
  | dccSend v => exact kept_debuggerTurn ⟨id, id, id, id⟩
  | debugControl monitor request takesBkpt => exact kept_debugControl monitor request takesBkpt s
  | debugMatch bkpt wpt => exact kept_debuggerTurn ⟨id, id, id, id⟩
  | debugRead d => exact kept_debugRead d s
  | debugReg r v => exact kept_haltedTurn (works_setPhys s r v).keeps
  | debugCpsr v => exact kept_debugCpsr v s
  | debugSpsr e v => exact kept_haltedTurn (keeps_setSpsr s e _)
  | debugStore a size v => exact kept_debugStore a size v s
  | debugExec bits => exact kept_debugExec bits s
  | chain15 w => exact kept_chain15 w s
  | debugRestart a => exact kept_debugRestart a s

/-- Every step keeps the four invariants. -/
theorem step_keeps (s : State) : Kept s (step s) := by
  unfold step guarded
  split
  · trivial
  · split
    · exact kept_coreTurnWith run_exec s
    next t r _ =>
      have rest : Keeps s { s with agenda := r } := ⟨id, id, id, id⟩
      exact rest.then (kept_takeTurn t _)

theorem step_next_keeps {s t : State} (h : step s = .next t) : Keeps s t := by
  have hs := step_keeps s
  rw [h] at hs
  exact hs

/-! ### The statements -/

/-- Settles O51: what every step keeps holds the canonical form of the memories. -/
theorem stepKeepsCanonicalMemory : Obligations.StepKeepsCanonicalMemory := fun _ _ hs h => (step_next_keeps h).mem hs

/-- Settles O52. -/
theorem stepKeepsLegalMode : Obligations.StepKeepsLegalMode := fun _ _ hs h => (step_next_keeps h).mode hs

/-- Settles O53. -/
theorem stepKeepsAlignedPc : Obligations.StepKeepsAlignedPc := fun _ _ hs h => (step_next_keeps h).pc hs

/-- Settles O54. -/
theorem stepKeepsBufferDepths : Obligations.StepKeepsBufferDepths := fun _ _ hs h => (step_next_keeps h).fit hs

end Sys2Proof.Machine

/-! PROOF. What an instruction in User mode can change (R43, R49, R230, R590 to R592): the statement O55, from what an instruction
can do. -/

namespace Sys2Proof.Machine

/-- The system registers of `s` are those of `t`: CP15, the Trace Process ID, and the debug channel but DbgAbt (R230, R260). -/
def SystemRegsStay (s t : State) : Prop :=
  t.ctl = s.ctl ∧ t.cfg = s.cfg ∧ t.procId = s.procId ∧ t.procIdWrites = s.procIdWrites ∧
    { t.dcc with dbgAbt := s.dcc.dbgAbt } = s.dcc

/-- `t` has entered the exception `e` from `s` (R570, R571). -/
def Entered (e : Exc) (s t : State) : Prop :=
  t.cpsr.m = e.mode.bits ∧ t.cpsr.t = false ∧ t.cpsr.i = true ∧ t.pc = s.vectorBase + e.offset ∧ t.spsr e.mode = s.cpsr

theorem entered_takeException (s : State) (e : Exc) : Entered e s (s.takeException e) := by
  refine ⟨?_, ?_, ?_, State.takeException_pc s e,
    (State.spsr_takeException s e e.mode).trans (if_pos rfl)⟩ <;> rw [State.takeException_cpsr]

/-- An instruction that ends leaves the system registers alone. -/
theorem Ends.systemRegs {ok : Prop} {u t : State} (h : Ends ok u t) :
    t.ctl = u.ctl ∧ t.cfg = u.cfg ∧ t.procId = u.procId ∧ t.procIdWrites = u.procIdWrites ∧ t.dcc = u.dcc := by
  cases h with
  | advance | branch | exchange | halt => exact ⟨rfl, rfl, rfl, rfl, rfl⟩
  | exception e => cases e <;> exact ⟨rfl, rfl, rfl, rfl, rfl⟩
  | returns v t h =>
    obtain ⟨e, -, ⟨-, rfl⟩ | ⟨-, -, rfl⟩⟩ := exceptionReturn_cases h <;> exact ⟨rfl, rfl, rfl, rfl, rfl⟩
  | abort => rcases dataAbort_cases u with ⟨-, h⟩ | ⟨-, -, h⟩ | ⟨-, -, h⟩ <;> rw [h] <;> exact ⟨rfl, rfl, rfl, rfl, rfl⟩

/-- User mode has no SPSR to return by (R48): an instruction in User mode ends in User mode, or in an exception. -/
theorem Ends.user {ok : Prop} {u t : State} (h : Ends ok u t) (hm : u.cpsr.m = modeUser) :
    t.cpsr = { u.cpsr with t := t.cpsr.t } ∧ t.spsrs = u.spsrs ∨ ∃ e, Entered e u t := by
  cases h with
  | advance | branch | exchange | halt => exact .inl ⟨rfl, rfl⟩
  | returns v t h =>
    obtain ⟨e, he, -⟩ := exceptionReturn_cases h
    rw [hm] at he
    cases he
  | exception e => exact .inr ⟨e, entered_takeException u e⟩
  | abort =>
    rcases dataAbort_cases u with ⟨-, h⟩ | ⟨-, -, h⟩ | ⟨-, -, h⟩ <;> rw [h]
    · exact .inl ⟨rfl, rfl⟩
    · exact .inr ⟨.dataAbort, entered_takeException u .dataAbort⟩
    · exact .inr ⟨.dataAbort, entered_takeException u .dataAbort⟩

theorem Works.systemRegs {s u : State} (h : Works s u) : SystemRegsStay s u :=
  ⟨h.ctl, h.cfg, h.procId, h.procIdWrites, by rw [h.dcc]⟩

/-- Settles O55: a write of a system register asks for privilege, and what is left works, sets flags, and ends. -/
theorem userModeLeavesOnlyByException : Obligations.UserModeLeavesOnlyByException := by
  unfold Obligations.UserModeLeavesOnlyByException
  intro i s t hm h
  have he := exec_effects i s
  rw [h] at he
  cases he with
  | program u t work last =>
    have hsys : SystemRegsStay s t := by
      obtain ⟨h1, h2, h3, h4, h5⟩ := last.systemRegs
      rw [SystemRegsStay, h1, h2, h3, h4, h5]
      exact work.systemRegs
    obtain ⟨k1, k2, k3, k4, k5⟩ := hsys
    refine ⟨k1, k2, k3, k4, k5, ?_⟩
    rcases last.user (work.mode.trans hm) with ⟨hc, hs⟩ | ⟨e, e1, e2, e3, e4, e5⟩
    · rw [hc, hs, work.cpsr, work.spsrs]
      exact .inl ⟨hm, rfl, rfl, rfl⟩
    · refine .inr ⟨e, e1, e2, e3, ?_, e5.trans work.cpsr⟩
      rw [e4, State.vectorBase, State.vectorBase, work.ctl]
  | flags p u only work =>
    obtain ⟨k1, k2, k3, k4, k5⟩ := work.systemRegs
    refine ⟨k1, k2, k3, k4, k5, .inl ?_⟩
    show u.cpsr.m = modeUser ∧ u.cpsr.i = s.cpsr.i ∧ u.cpsr.f = s.cpsr.f ∧ u.spsrs = s.spsrs
    rw [work.cpsr, work.spsrs]
    dsimp only
    rw [only]
    exact ⟨hm, rfl, rfl, rfl⟩
  | system t priv write => exact absurd priv (by rw [State.priv, hm]; decide)

end Sys2Proof.Machine

/-! PROOF. Reset (R90, R93, R620 to R622) and exception entry (R570 to R575): the statements O56, O57 and O28. -/

namespace Sys2Proof.Machine

/-! ### Reset -/

/-- Settles O56: the memories are empty, the mode is Supervisor, the pc is a vector, the buffers are empty. -/
theorem resetMeetsTheInvariants : Obligations.ResetMeetsTheInvariants :=
  ⟨reset_memories_wf, .inr rfl, rfl, Nat.zero_le _, Nat.zero_le _, Nat.zero_le _, Nat.zero_le _, Nat.zero_le _⟩

/-- The Control Register after Reset, bit by bit of its word (R621). -/
theorem Control.reset_toWord (p : Params) : (Control.reset p).toWord =
    0x00000F70 ||| (if p.vinithi then 0x2000 else 0) ||| (if p.initram then 0x1004 else 0) := by
  unfold Control.reset
  cases p.vinithi <;> cases p.initram <;> rfl

theorem ConfigCtl.reset_toWord : ConfigCtl.reset.toWord = 4 := by decide

/-- What a warm reset leaves, but for the registers, the SPSRs, the flags and what the pending stores decide (R620, R622). -/
theorem warmReset_framed (s : State) : s.warmReset = { s with
    regs := s.warmReset.regs, spsrs := s.warmReset.spsrs, free := s.warmReset.free
    itcm := s.resetBuffers.itcm, dtcm := s.resetBuffers.dtcm, ahb := s.resetBuffers.ahb
    itcmWB := [], dtcmWB := [], ahbWB := []
    pc := if s.params.vinithi then 0xFFFF0000 else 0
    cpsr := { s.warmReset.cpsr with i := true, f := true, t := false, m := modeSvc }
    unrecoverable := false, ctl := Control.reset s.params, cfg := ConfigCtl.reset, procId := 0, standby := false
    dbg := { s.dbg with halted := false }, ipb := [], ipbNext := none, pipe := [], nonseq := true, pastTop := false
    bankHazard := false, oldRoutes := [], etmRun := none } := by
  obtain ⟨ha, hi, hd⟩ := resetBuffers_empty s
  have hbuf := (resetBuffers_framed s).1
  have hfree := freeRegs_framed allPhys s.resetBuffers
  rw [ha, hi, hd] at hbuf
  unfold State.warmReset
  dsimp only
  rw [hfree, hbuf]

/-- With nothing pending Reset changes no memory (R620). -/
theorem resetBuffers_of_empty {s : State} (ha : s.ahbWB = []) (hi : s.itcmWB = []) (hd : s.dtcmWB = []) :
    s.resetBuffers = { s with ahbWB := [], itcmWB := [], dtcmWB := [] } := by
  unfold State.resetBuffers
  rw [ha, hi, hd]
  rfl

/-- Settles O57. -/
theorem resetSetsWhatTheSpecSays : Obligations.ResetSetsWhatTheSpecSays := by
  unfold Obligations.ResetSetsWhatTheSpecSays
  refine ⟨fun p => ?_, fun s => ⟨?_, ?_, ?_, fun ha hi hd => ?_⟩⟩
  · exact ⟨rfl, rfl, rfl, rfl, rfl, Control.reset_toWord p, ConfigCtl.reset_toWord,
      rfl, rfl, rfl, rfl, rfl, rfl, rfl, rfl, rfl, rfl⟩
  · rw [warmReset_framed]
    exact ⟨rfl, rfl, rfl, rfl, rfl, Control.reset_toWord s.params, ConfigCtl.reset_toWord,
      rfl, rfl, rfl, rfl, rfl, rfl, rfl, rfl, rfl, rfl⟩
  · rw [warmReset_framed]
  · rw [warmReset_framed]
  · rw [warmReset_framed, resetBuffers_of_empty ha hi hd]
    exact ⟨rfl, rfl, rfl⟩

/-! ### Exception entry -/

/-- The entry of an exception is that of the table of R571. -/
theorem enters_takeException (s : State) (e : Exc) : Enters (.next (s.takeException e)) s e := by
  refine ⟨_, rfl, State.takeException_pc s e, State.takeException_cpsr s e, ?saved, fun e' he => ?kept, ⟨?link, ?others⟩, ?mem,
    State.takeException_unrecoverable s e, ?rest⟩
  case saved => rw [State.spsr_takeException, if_pos rfl]
  case kept => rw [State.spsr_takeException, if_neg he]
  case link => simp
  case others =>
    intro q hq
    rw [State.getPhys_takeException, if_neg (by simpa using hq)]
  case mem => exact ⟨nofun, fun _ _ => by rw [takeException_eq]; rfl⟩
  case rest => rw [SystemStays, takeException_eq]

/-- Settles O28: the entry for every exception; the constants of the table by evaluation. -/
theorem exceptionEntryByTheTable : Obligations.ExceptionEntryByTheTable := by
  unfold Obligations.ExceptionEntryByTheTable
  refine fun s => ⟨fun e => ⟨enters_takeException s e, ?_⟩, rfl, rfl, rfl, rfl⟩
  rw [takeException_eq]
  exact ⟨rfl, rfl, rfl, rfl, rfl⟩

end Sys2Proof.Machine

/-! PROOF. Standby, and the stall of FIFOFULL (R71, R244, R596, R612, R671): the statement O59. -/

namespace Sys2Proof.Machine

/-! ### The pins of an ETM that is not there (R671) -/

theorem etmPinStop_fifofull {s : State} (he : s.params.etm = false) (hf : s.pins.fifofull = true) :
    s.etmPinStop = some .fifofullNoEtm := by
  simp only [State.etmPinStop, he, hf, Bool.false_eq_true, if_false, if_true]

theorem etmPinStop_etmen {s : State} (he : s.params.etm = false) (hf : s.pins.fifofull = false) (hn : s.pins.etmen = true) :
    s.etmPinStop = some .etmenNoEtm := by
  simp only [State.etmPinStop, he, hf, hn, Bool.false_eq_true, if_false, if_true]

/-- Where monitor debug-mode forbids nothing, the pins of the ETM decide whether a state is refused. -/
theorem inputStop_eq {s : State} (h : s.monitorStop = none) : s.inputStop = s.etmPinStop := by
  rw [State.inputStop, h]

theorem step_refused {s : State} {u : Unpred} (h : s.forbidden = some u) : step s = .refused (.unpredictable u) := by
  rw [step, h]
  rfl

theorem step_etmPin {s : State} {u : Unpred} (hl : s.params.legal = true) (hm : s.monitorStop = none)
    (h : s.etmPinStop = some u) : step s = .refused (.unpredictable u) :=
  step_refused (by rw [State.forbidden, if_pos hl, inputStop_eq hm, h])

/-- A turn of the environment drives the pins, or is refused (R671, U34). -/
theorem step_setPins {s : State} {p : Pins} {r : List Turn} {u : Unpred} (hf : s.forbidden = none)
    (ha : s.agenda = .bus (.setPins p) :: r) (hm : (s.drivePins p).monitorStop = none) (h : (s.drivePins p).etmPinStop = some u) :
    step s = .refused (.unpredictable u) := by
  have hin : (State.drivePins { s with agenda := r } p).inputStop = some u := (inputStop_eq hm).trans h
  simp only [step, hf, ha, guarded, takeTurn, busTurn, setPins, hin]
  rfl

/-! ### The turn of a core that is not held back by debug -/

/-- The core neither halted nor unrecoverable, with no debug request (R566). -/
def State.Running (s : State) : Prop :=
  s.forbidden = none ∧ s.agenda = [] ∧ s.unrecoverable = false ∧ s.dbg.halted = false ∧ s.debugRequest = false

/-- Steps 4 to 8 of R566. -/
theorem step_running {s : State} (h : s.Running) : step s =
    if s.settle.pins.fifofull && s.settle.etmRun.isNone then stalled exec s.settle
    else if s.settle.standby && !(s.settle.fiqOpen || s.settle.irqOpen) then .next s.settle
    else boundary exec { s.settle with standby := false } := by
  obtain ⟨hf, ha, hu, hh, hr⟩ := h
  simp only [step_coreTurn hf ha, coreTurn, coreTurnWith, hu, hh, hr, Bool.or_self, Bool.false_eq_true, if_false]

/-- With FIFOFULL LOW, or out of the mode of the interrupt that got it going, no interrupt keeps the core going (R612). -/
theorem settle_eq {s : State} (h : s.pins.fifofull = true → s.etmRun ≠ some s.cpsr.m) : s.settle = { s with etmRun := none } := by
  unfold State.settle
  cases hf : s.pins.fifofull with
  | false => rfl
  | true => rw [Bool.true_and, beq_false_of_ne (h hf)]; rfl

/-- In the mode of the interrupt that got it going the core runs on (R612). -/
theorem settle_of_run {s : State} (hf : s.pins.fifofull = true) (h : s.etmRun = some s.cpsr.m) : s.settle = s := by
  simp only [State.settle, hf, h, BEq.rfl, Bool.and_self, if_true]

/-! ### Requests that are held back, masked or taken -/

/-- With FIFOFULL HIGH an interrupt is not held back where its pin is HIGH and its mask bit is 0 (R612). -/
theorem fiqOpen_false_iff {s : State} (hf : s.pins.fifofull = true) :
    s.fiqOpen = false ↔ s.pins.fiq = false ∨ s.cfg.fm = true := by
  rw [State.fiqOpen, hf]
  cases s.pins.fiq <;> cases s.cfg.fm <;> decide

theorem irqOpen_false_iff {s : State} (hf : s.pins.fifofull = true) :
    s.irqOpen = false ↔ s.pins.irq = false ∨ s.cfg.im = true := by
  rw [State.irqOpen, hf]
  cases s.pins.irq <;> cases s.cfg.im <;> decide

theorem takesFiq_false_iff {s : State} (hf : s.pins.fifofull = true) :
    s.takesFiq = false ↔ (s.pins.fiq = false ∨ s.cfg.fm = true) ∨ s.cpsr.f = true := by
  rw [← fiqOpen_false_iff hf, State.takesFiq]
  cases s.fiqOpen <;> cases s.cpsr.f <;> decide

theorem takesIrq_false_iff {s : State} (hf : s.pins.fifofull = true) :
    s.takesIrq = false ↔ (s.pins.irq = false ∨ s.cfg.im = true) ∨ s.cpsr.i = true := by
  rw [← irqOpen_false_iff hf, State.takesIrq]
  cases s.irqOpen <;> cases s.cpsr.i <;> decide

theorem pendingInterrupt_fiq {s : State} (h : s.takesFiq = true) : s.pendingInterrupt = some .fiq := if_pos h

theorem pendingInterrupt_irq {s : State} (hf : s.takesFiq = false) (h : s.takesIrq = true) : s.pendingInterrupt = some .irq := by
  rw [State.pendingInterrupt, hf, if_neg Bool.false_ne_true, if_pos h]

/-! ### The stall (R612) -/

/-- The stalled core takes a turn of its own. -/
theorem step_stalled {s : State} (h : s.Running) (hf : s.pins.fifofull = true) (he : s.etmRun ≠ some s.cpsr.m) :
    step s = stalled exec { s with etmRun := none } := by
  rw [step_running h, settle_eq fun _ => he]
  simp only [hf, Option.isNone_none, Bool.and_self, if_true]

/-- With no interrupt to take, the stalled core does nothing, but that a request which is not held back ends Standby (log 30). -/
theorem step_stalled_idle {s : State} (h : s.Running) (hfull : s.pins.fifofull = true) (he : s.etmRun ≠ some s.cpsr.m)
    (hf : s.takesFiq = false) (hi : s.takesIrq = false) : step s =
    if s.fiqOpen || s.irqOpen then .next { s with etmRun := none, standby := false } else .next { s with etmRun := none } := by
  have hp : State.pendingInterrupt { s with etmRun := none } = none := pendingInterrupt_none hf hi
  rw [step_stalled h hfull he, stalled, hp]
  rfl

/-- The interrupt that breaks the stall is that of a core which runs until its mode is left (R612, R568). -/
theorem takeInterrupt_eq {s : State} (e : Exc) (hf : s.pins.fifofull = true) : takeInterrupt e s = State.takeException e { s with
    standby := false, etmRun := some e.mode.bits, dbg := { s.dbg with bkptMatch := false } } := by
  simp only [takeInterrupt, takeException_eq, hf, if_true]
  cases e <;> rfl

/-- The stalled core takes an interrupt that is pending. -/
theorem enters_of_stalled {run : Instr → State → Result} {s : State} {e : Exc} (hf : s.pins.fifofull = true)
    (hp : s.pastTop = false) (hl : s.dbg.wptLatch = false) (he : s.pendingInterrupt = some e) :
    Enters (stalled run s) { s with
      standby := false, etmRun := some e.mode.bits, dbg := { s.dbg with bkptMatch := false } } e := by
  have h : stalled run s = .next (takeInterrupt e s) := by
    simp only [stalled, boundary, interruptOrRun, he, hp, hl, Option.isSome_some, if_true, Bool.false_and, Bool.false_eq_true,
      if_false]
  rw [h, takeInterrupt_eq e hf]
  exact enters_takeException _ e

/-! ### The statement -/

/-- With FIFOFULL LOW nothing is held back, and no interrupt keeps the core going (R612). -/
theorem step_of_low {s : State} (h : s.Running) (hf : s.pins.fifofull = false) : step s =
    if s.standby && !(s.pins.fiq || s.pins.irq) then .next { s with etmRun := none }
    else boundary exec { s with etmRun := none, standby := false } := by
  have hset : s.settle = { s with etmRun := none } := settle_eq fun h => absurd h (by rw [hf]; exact Bool.false_ne_true)
  simp only [step_running h, hset, State.fiqOpen, State.irqOpen, hf, Bool.false_and, Bool.not_false, Bool.and_true,
    Bool.false_eq_true, if_false]

/-- In Standby only a request for an interrupt makes the core go on (R71, R244). -/
theorem step_standby {s : State} (h : s.Running) (hf : s.pins.fifofull = false) (hs : s.standby = true) :
    (s.pins.fiq = false → s.pins.irq = false → step s = .next { s with etmRun := none }) ∧
      (s.pins.fiq = true ∨ s.pins.irq = true → step s = step { s with standby := false }) := by
  have hrun : State.Running { s with standby := false } := h
  constructor
  · intro hq hi
    rw [step_of_low h hf, hs, hq, hi]
    rfl
  · intro hr
    have hr' : (s.pins.fiq || s.pins.irq) = true := by simpa using hr
    rw [step_of_low h hf, step_of_low hrun hf, hr', Bool.not_true, Bool.and_false]
    rfl

/-- The core that an interrupt got going runs its next instruction (R612). -/
theorem step_runs_on {s s1 : State} {f : Fetched} {i : Instr} (h : s.Running) (hf : s.pins.fifofull = true)
    (he : s.etmRun = some s.cpsr.m) (hs : s.standby = false) (hp : s.pastTop = false) (hl : s.dbg.wptLatch = false)
    (hfiq : s.takesFiq = false) (hirq : s.takesIrq = false) (hfetch : s.coreFetch = .ok f s1) (herr : f.err = false)
    (hb : s1.breakHit f = false) (hr : s.staleRoute = false) (hd : decode (s1.code f.bits) = .ok i)
    (hbank : s1.bankedUse i = false) : step s = exec i s1 := by
  have hstand : { s with standby := false } = s := by rw [← hs]
  calc step s = boundary exec { s with standby := false } := by
        rw [step_running h, settle_of_run hf he]
        simp only [he, hs, Option.isNone_some, Bool.and_false, Bool.false_and, Bool.false_eq_true, if_false]
    _ = boundary exec s := by rw [hstand]
    _ = runInstruction exec s := by
        rw [boundary_eq hp (by rw [hl]; rfl) hfiq hirq, hl]
        rfl
    _ = runCode exec f.bits s1 := runInstruction_eq hr hfetch herr hb
    _ = exec i s1 := by
        simp only [runCode, hd, hbank, Bool.false_eq_true, if_false]

/-- Settles O59, clause by clause: the pins, Standby, the stall, and the core that runs on. -/
theorem standbyAndFifofullHoldTheCore : Obligations.StandbyAndFifofullHoldTheCore := by
  unfold Obligations.StandbyAndFifofullHoldTheCore
  refine ⟨fun s hl hm hf he => step_etmPin hl hm (etmPinStop_fifofull he hf),
    fun s hl hm hf hn he => step_etmPin hl hm (etmPinStop_etmen he hf hn),
    fun s p r hf ha hm he => ⟨fun h => step_setPins hf ha hm (etmPinStop_fifofull he h),
      fun h hn => step_setPins hf ha hm (etmPinStop_etmen he h hn)⟩, ?_⟩
  intro s hf ha hu hh hr held broken
  have hrun : s.Running := ⟨hf, ha, hu, hh, hr⟩
  refine ⟨step_standby hrun, fun hfull _ he => ⟨?held, ?fiq, ?irq, ?masked⟩, ?on⟩
  case held =>
    intro hfiq hirq
    rw [step_stalled_idle hrun hfull he ((takesFiq_false_iff hfull).mpr (.inl hfiq)) ((takesIrq_false_iff hfull).mpr (.inl hirq)),
      (fiqOpen_false_iff hfull).mpr hfiq, (irqOpen_false_iff hfull).mpr hirq]
    rfl
  case fiq =>
    intro hp hl hpin hmask hbit
    have htake : s.takesFiq = true := by simp [State.takesFiq, State.fiqOpen, hpin, hmask, hbit]
    rw [step_stalled hrun hfull he]
    exact enters_of_stalled hfull hp hl (pendingInterrupt_fiq htake)
  case irq =>
    intro hp hl hpin hmask hbit hfiq
    have htake : s.takesIrq = true := by simp [State.takesIrq, State.irqOpen, hpin, hmask, hbit]
    rw [step_stalled hrun hfull he]
    exact enters_of_stalled hfull hp hl (pendingInterrupt_irq ((takesFiq_false_iff hfull).mpr hfiq) htake)
  case masked =>
    intro hopen hfiq hirq
    rw [step_stalled_idle hrun hfull he ((takesFiq_false_iff hfull).mpr hfiq) ((takesIrq_false_iff hfull).mpr hirq)]
    refine if_pos (by_contra fun hno => hopen ?_)
    obtain ⟨hf, hi⟩ := Bool.or_eq_false_iff.mp (Bool.not_eq_true _ ▸ hno)
    exact ⟨(fiqOpen_false_iff hfull).mp hf, (irqOpen_false_iff hfull).mp hi⟩
  case on =>
    intro hfull _ he hs hp hl hfiq hirq s1 f i hfetch herr hb hstale hd hbank
    exact step_runs_on hrun hfull he hs hp hl ((takesFiq_false_iff hfull).mpr hfiq) ((takesIrq_false_iff hfull).mpr hirq) hfetch
      herr hb hstale hd hbank

end Sys2Proof.Machine

/-! PROOF. The status registers (R40 to R49, R277, R338, R341): reading and writing them, and the return by data processing; the
statements O25, O26 and O17. -/

namespace Sys2Proof.Machine

/-- `u` has the registers `dst`; its other registers, its memory and everything else are those of `s`. -/
def Brings (dst : List (PhysReg × Word)) (s u : State) : Prop :=
  RegistersBecome dst s u ∧ MemoryStays s u ∧ u.cpsr = s.cpsr ∧ u.spsrs = s.spsrs ∧
    u.unrecoverable = s.unrecoverable ∧ SystemStays s u

theorem Brings.refl (s : State) : Brings [] s s := ⟨⟨nofun, fun _ _ => rfl⟩, ⟨nofun, fun _ _ => rfl⟩, rfl, rfl, rfl, rfl⟩

theorem Brings.cpsr {dst : List (PhysReg × Word)} {s u : State} (h : Brings dst s u) : u.cpsr = s.cpsr := by
  obtain ⟨-, -, hcpsr, -⟩ := h
  exact hcpsr

theorem Brings.ctl {dst : List (PhysReg × Word)} {s u : State} (h : Brings dst s u) : u.ctl = s.ctl := by
  obtain ⟨-, -, -, -, -, hsys⟩ := h
  rw [hsys]

/-- A write of the CPSR, and a control transfer. -/
theorem Brings.gives_branch {dst : List (PhysReg × Word)} {s u : State} (h : Brings dst s u) (p : Psr) (a : Word) :
    Gives (.next (State.branchTo { u with cpsr := p } a)) s a p dst [] := by
  obtain ⟨hregs, hmem, -, hspsrs, hun, hsys⟩ := h
  refine ⟨_, rfl, rfl, rfl, hregs, hmem, hspsrs, hun, ?_⟩
  rw [SystemStays] at hsys ⊢
  rw [hsys]
  rfl

/-- A legal mode does not make the core unrecoverable (R46). -/
theorem putCpsr_of_legal (s : State) {p : Psr} (h : legalMode p.m = true) : s.putCpsr p = { s with cpsr := p } := by
  simp only [State.putCpsr, h, Bool.not_true, Bool.or_false]

/-- A write of the CPSR that leaves the state, and the next instruction in sequence. -/
theorem gives_cpsr_advance (s : State) {p : Psr} (ht : p.t = s.cpsr.t) :
    Gives (.next (State.advance { s with cpsr := p })) s s.nextAddr p [] [] := by
  refine ⟨_, rfl, ?_, rfl, ⟨nofun, fun _ _ => rfl⟩, ⟨nofun, fun _ _ => rfl⟩, rfl, rfl, rfl⟩
  rw [State.advance_pc, State.instrLen, ht]
  rfl

/-- Outside User mode the core is privileged (R43, R45). -/
theorem priv_iff {s : State} : s.priv = true ↔ s.cpsr.m ≠ modeUser := by
  simp only [State.priv, privileged, bne_iff_ne]

/-! ### MRS (R338) -/

theorem exec_mrs {c : Cond} {rd : Reg} {s : State} (r : Bool) (hc : s.cpsr.passes c = true) (hrd : rd ≠ 15) :
    exec (.mrs c r 15 rd 0 0) s = readStatus r rd s := by
  have hcheck : mrsCheck 15 rd 0 0 = none := by
    simp only [mrsCheck, firstOf, beq_false_of_ne hrd]
    rfl
  show conditional c s (guarded (mrsCheck 15 rd 0 0) (readStatus r rd s)) = _
  rw [conditional_pass hc, hcheck, guarded_none]

/-- A status register that is there comes into the register (R338). -/
theorem readStatus_gives {s : State} {r : Bool} {rd : Reg} {v : Word} (hrd : rd ≠ 15) (h : s.statusWord r = some v) :
    Gives (readStatus r rd s) s s.nextAddr s.cpsr [(s.phys rd, v)] [] := by
  rw [readStatus, h]
  exact gives_setReg_advance s v rfl rfl hrd

/-- Settles O25: the register that MRS reads, and the layout of a status register. -/
theorem mrsReadsStatus : Obligations.MrsReadsStatus := by
  unfold Obligations.MrsReadsStatus
  refine ⟨fun c rd s hc hrd => ⟨?cpsr, fun e he => ?spsr, fun he => ?none⟩, fun p j => p.toWord_getLsbD⟩
  case cpsr =>
    rw [Computes, exec_mrs false hc hrd]
    exact readStatus_gives hrd rfl
  case spsr =>
    rw [Computes, exec_mrs true hc hrd]
    exact readStatus_gives hrd (by simp [State.statusWord, he])
  case none =>
    have hno : s.statusWord true = none := by simp [State.statusWord, he]
    rw [exec_mrs true hc hrd, readStatus, hno]
    rfl

/-! ### MSR (R341) -/

/-- The bytes that the field mask selects, of those that MSR can write: those of the flags and of the control byte (R341). -/
def msrMask (fm : BitVec 4) : Word := (if fm.getLsbD 0 then 0xFF else 0) + (if fm.getLsbD 3 then 0xF8000000#32 else 0)

theorem fieldMask_spsrMask (fm : BitVec 4) : fieldMask fm &&& spsrMask = msrMask fm := by
  revert fm
  decide

theorem fieldMask_privMask (fm : BitVec 4) : fieldMask fm &&& privMask = msrMask fm &&& 0xFFFFFFDF := by
  revert fm
  decide

theorem fieldMask_userMask (fm : BitVec 4) : fieldMask fm &&& userMask = msrMask fm &&& 0xFFFFFF00 := by
  revert fm
  decide

/-- Both operand forms of MSR write their operand (R341). -/
theorem exec_msr {c : Cond} {r : Bool} {fm : BitVec 4} {rm : Reg} {rot : BitVec 4} {imm : BitVec 8} {s : State} {i : Instr}
    {v : Word}
    (hc : s.cpsr.passes c = true)
    (hi : i = .msrReg c r fm 15 0 rm ∧ rm ≠ 15 ∧ v = s.reg rm ∨
      i = .msrImm c r fm 15 rot imm ∧ v = (imm.setWidth 32).rotateRight (2 * rot.toNat)) :
    exec i s = writeStatus r fm v s := by
  rcases hi with ⟨rfl, hrm, rfl⟩ | ⟨rfl, rfl⟩
  · have hcheck : msrCheck 15 0 rm = none := by
      simp only [msrCheck, firstOf, beq_false_of_ne hrm]
      rfl
    show conditional c s (guarded (msrCheck 15 0 rm) (writeStatus r fm (s.reg rm) s)) = _
    rw [conditional_pass hc, hcheck, guarded_none]
  · show conditional c s (guarded (fieldCheck 15 15) (writeStatus r fm (immOperand rot imm false).value s)) = _
    rw [conditional_pass hc]
    rfl

/-- An MSR of the CPSR in User mode writes the flags (R341, R43). -/
theorem writeStatus_user {s : State} (fm : BitVec 4) (v : Word) (hm : s.cpsr.m = modeUser) :
    writeStatus false fm v s = .next (State.advance { s with cpsr := s.cpsr.write (msrMask fm &&& 0xFFFFFF00) v }) := by
  have hp : s.priv = false := by rw [← Bool.not_eq_true, priv_iff, not_not]; exact hm
  simp only [writeStatus, hp, Bool.false_eq_true, if_false, fieldMask_userMask]

/-- An MSR of the CPSR in a privileged mode writes all but the T bit (R341). -/
theorem writeStatus_priv {s : State} (fm : BitVec 4) (v : Word) (hm : s.cpsr.m ≠ modeUser) :
    writeStatus false fm v s = if v.getLsbD 5 then unpredictable .msrSetsT
      else .next (s.putCpsr (s.cpsr.write (msrMask fm &&& 0xFFFFFFDF) v)).advance := by
  simp only [writeStatus, priv_iff.mpr hm, Bool.false_eq_true, if_false, if_true, fieldMask_privMask]

/-- An MSR of the SPSR asks for an exception mode (R341, R48). -/
theorem writeStatus_noSpsr {s : State} (fm : BitVec 4) (v : Word) (he : excMode s.cpsr.m = none) :
    writeStatus true fm v s = unpredictable .noSpsr := by
  simp only [writeStatus, if_true, he]

theorem writeStatus_spsr {s : State} {e : ExcMode} (fm : BitVec 4) (v : Word) (he : excMode s.cpsr.m = some e) :
    writeStatus true fm v s = .next (s.setSpsr e ((s.spsr e).write (msrMask fm) v)).advance := by
  simp only [writeStatus, if_true, he, fieldMask_spsrMask]

/-- A core that an illegal mode has made unrecoverable does nothing (R46). -/
theorem step_unrecoverable {s : State} (hu : s.unrecoverable = true) (hf : s.forbidden = none) (ha : s.agenda = []) :
    step s = .next s := by
  rw [step_coreTurn hf ha, coreTurn, coreTurnWith, hu]
  rfl

/-- An illegal mode makes the core unrecoverable (R46). -/
theorem putCpsr_advance_unrecoverable (s : State) {p : Psr} (h : legalMode p.m = false) :
    (s.putCpsr p).advance.unrecoverable = true := by
  show (s.unrecoverable || !legalMode p.m) = true
  rw [h]
  exact Bool.or_true _

/-- Settles O26: the clauses go by the register, the mode, the T bit of the operand and the legality of the new mode. -/
theorem msrWritesTheMaskedFields : Obligations.MsrWritesTheMaskedFields := by
  unfold Obligations.MsrWritesTheMaskedFields
  intro c r fm rm rot imm s i v hc hi mask put
  simp only [Computes, exec_msr hc hi]
  refine ⟨?user, ?setsT, ?legal, ?illegal, ?noSpsr, ?spsr⟩
  case user =>
    rintro rfl hm
    have ht : (s.cpsr.write (msrMask fm &&& 0xFFFFFF00) v).t = s.cpsr.t :=
      Psr.write_t _ v (by rw [← fieldMask_userMask]; exact userMask_control fm 5 (by decide))
    rw [writeStatus_user fm v hm]
    exact gives_cpsr_advance s ht
  case setsT =>
    rintro rfl hm hv
    rw [writeStatus_priv fm v hm, if_pos hv]
    rfl
  case legal =>
    rintro rfl hm hv (hl : legalMode (s.cpsr.write (msrMask fm &&& 0xFFFFFFDF) v).m = true)
    have ht : (s.cpsr.write (msrMask fm &&& 0xFFFFFFDF) v).t = s.cpsr.t :=
      Psr.write_t _ v (by rw [← fieldMask_privMask]; exact privMask_t fm)
    rw [writeStatus_priv fm v hm, if_neg (by rw [hv]; exact Bool.false_ne_true), putCpsr_of_legal s hl]
    exact gives_cpsr_advance s ht
  case illegal =>
    rintro rfl hm hv hl
    rw [writeStatus_priv fm v hm, if_neg (by rw [hv]; exact Bool.false_ne_true)]
    exact ⟨_, rfl, rfl, putCpsr_advance_unrecoverable s hl, step_unrecoverable (putCpsr_advance_unrecoverable s hl)⟩
  case noSpsr =>
    rintro rfl he
    exact writeStatus_noSpsr fm v he
  case spsr =>
    rintro e rfl he
    rw [writeStatus_spsr fm v he]
    refine ⟨_, rfl, ?_, fun e' hne => ?_, ⟨nofun, fun _ _ => ?_⟩, ?_⟩
    · exact (State.spsr_setSpsr s e e _).trans (if_pos rfl)
    · exact (State.spsr_setSpsr s e e' _).trans (if_neg hne)
    · cases e <;> rfl
    · cases e <;> rfl

/-! ### The return from an exception by data processing (R277, R580) -/

/-- An operation with destination r15 and S = 1 returns from an exception with its result (R277). -/
theorem DpOp.exec_return {op : DpOp} (h : op ∉ [DpOp.tst, .teq, .cmp, .cmn]) {c : Cond} {rn : Reg} {o : Operand2} {s : State}
    (hc : s.cpsr.passes c = true) (hcheck : (op.instr c true rn 15 o).check = none) :
    exec (op.instr c true rn 15 o) s = exceptionReturn (op.result (s.reg rn) (o.eval s).value s.cpsr.c) s := by
  rw [DpOp.exec_instr h, conditional_pass hc, hcheck, guarded_none]
  simp only [dataProcess, DpOp.eval_eq, if_true]

/-- The return to a legal mode (R580). -/
theorem exceptionReturn_of_legal {s : State} {e : ExcMode} (v : Word) (he : excMode s.cpsr.m = some e)
    (hl : legalMode (s.spsr e).m = true) : exceptionReturn v s =
    if (s.spsr e).t then .next (State.branchTo { s with cpsr := s.spsr e } (clearLow 1 v))
    else if v.extractLsb' 0 2 = 0#2 then .next (State.branchTo { s with cpsr := s.spsr e } v) else unpredictable .target := by
  simp only [exceptionReturn, he, putCpsr_of_legal s hl]

/-- Settles O17: the clauses are those of the return. -/
theorem dataProcessingToPcReturns : Obligations.DataProcessingToPcReturns := by
  unfold Obligations.DataProcessingToPcReturns
  intro op c rn o s hop hc hcheck v
  rw [DpOp.exec_return hop hc hcheck]
  refine ⟨fun he => ?none, fun e he hl => ?some⟩
  case none =>
    rw [exceptionReturn, he]
    rfl
  case some =>
    rw [exceptionReturn_of_legal v he hl]
    refine ⟨fun ht => ?_, fun ht hv => ?_, fun ht hv => ?_⟩
    · rw [if_pos ht]
      exact (Brings.refl s).gives_branch _ _
    · rw [if_neg (by rw [ht]; exact Bool.false_ne_true), if_pos ((low_two_zero_iff v).mpr hv)]
      exact (Brings.refl s).gives_branch _ _
    · rw [if_neg (by rw [ht]; exact Bool.false_ne_true), if_neg (mt (low_two_zero_iff v).mp hv)]
      rfl

end Sys2Proof.Machine

/-! PROOF. What MRC reads from CP15 (R52, R53, R232 to R235, R240, R241): the statement O41. -/

namespace Sys2Proof.Machine

/-! ### The registers as words -/

/-- A bit of a word at its place. -/
def bitAt (b : Bool) (k : Nat) : Word := if b then 1#32 <<< k else 0

/-- The layout of the Control Register by its bits (R235). -/
theorem Control.toWord_eq (c : Control) : c.toWord = 0x00000F70 ||| bitAt c.lt 15 ||| bitAt c.v 13 ||| bitAt c.i 12 |||
    bitAt c.b 7 ||| bitAt c.w 3 ||| bitAt c.d 2 ||| bitAt c.a 1 := by
  obtain ⟨lt, v, i, b, w, d, a⟩ := c
  revert lt v i b w d a
  decide

/-- The layout of the Configuration Control Register by its bits (R241). -/
theorem ConfigCtl.toWord_eq (c : ConfigCtl) : c.toWord =
    bitAt c.i 18 ||| bitAt c.d 17 ||| bitAt c.b 16 ||| bitAt c.fm 2 ||| bitAt c.im 1 := by
  obtain ⟨i, d, b, fm, im⟩ := c
  revert i d b fm im
  decide

theorem deviceId_eq (s : State) : s.deviceId = if s.params.idMinor then 0x41059681 else 0x41059680 := by
  unfold State.deviceId
  cases s.params.idMinor <;> rfl

/-- The field of a TCM in the TCM Size Register: its size, and the bit that says it is absent (R53, R234). -/
def tcmSizeField (code : BitVec 5) : Word := code.setWidth 32 <<< 6 ||| bitAt (decide (code = 0)) 2

theorem tcmSizeWord_eq (s : State) : s.tcmSizeWord =
    tcmSizeField s.params.dtcmSize <<< 12 ||| tcmSizeField s.params.itcmSize := by
  have absent (code : BitVec 5) : bitAt (decide (code = 0)) 2 = if code = 0 then 4 else 0 := by
    by_cases h : code = 0 <;> simp [h, bitAt]
  have absent' (code : BitVec 5) : (if code = 0 then (4 : Word) else 0) <<< 12 = if code = 0 then 0x4000 else 0 := by
    split <;> rfl
  simp only [State.tcmSizeWord, tcmSizeField, BitVec.shiftLeft_or_distrib, ← BitVec.shiftLeft_add, absent, absent', Nat.reduceAdd,
    BitVec.or_assoc]
  congr 2
  split <;> rfl

/-! ### MRC (R232) -/

theorem noPcCheck_none {r : Reg} (h : r ≠ 15) : noPcCheck r = none := by
  rw [noPcCheck, firstOf, beq_false_of_ne h]
  rfl

section
variable {c : Cond} {rd : Reg} {s : State} {o1 op2 : BitVec 3} {crn crm : BitVec 4} {v : Word}

/-- In a privileged mode a register that the selector names for reading comes into the destination (R230, R232). -/
theorem mrc15_computes (hc : s.cpsr.passes c = true) (hp : s.priv = true) (hrd : rd ≠ 15)
    (h : (cp15Select o1 crn crm op2).bind s.cp15Read = some v) :
    Computes (.mrc15 c o1 crn rd op2 crm) s s.cpsr [(s.phys rd, v)] := by
  have hexec : execMrc15 c o1 crn rd op2 crm s = .next (s.setReg rd v).advance := by
    simp only [execMrc15, conditional_pass hc, privilegedOnly_of_priv _ hp, noPcCheck_none hrd, guarded_none, h]
  rw [Computes, show exec (.mrc15 c o1 crn rd op2 crm) s = _ from hexec]
  exact gives_setReg_advance s v rfl rfl hrd

/-- A selector that names nothing to read is refused (R232). -/
theorem mrc15_refused (hc : s.cpsr.passes c = true) (hp : s.priv = true) (hrd : rd ≠ 15)
    (h : (cp15Select o1 crn crm op2).bind s.cp15Read = none) :
    exec (.mrc15 c o1 crn rd op2 crm) s = .refused (.unpredictable .cpSelector) := by
  show execMrc15 c o1 crn rd op2 crm s = unpredictable .cpSelector
  simp only [execMrc15, conditional_pass hc, privilegedOnly_of_priv _ hp, noPcCheck_none hrd, guarded_none, h]

end

/-- A selector that R232 does not list for reading names nothing to read. -/
theorem cp15Read_unlisted {o1 op2 : BitVec 3} {crn crm : BitVec 4} (s : State) (hid : ¬ (o1 = 0 ∧ crn = 0 ∧ crm = 0))
    (hctl : ¬ (o1 = 0 ∧ crn = 1 ∧ op2 = 0 ∧ crm = 0)) (htrace : ¬ (o1 = 0 ∧ crn = 13 ∧ op2 = 1))
    (hcfg : ¬ (o1 = 1 ∧ crn = 15 ∧ op2 = 0 ∧ crm = 1)) : (cp15Select o1 crn crm op2).bind s.cp15Read = none := by
  rw [and_comm (a := op2 = 0)] at hctl hcfg
  rw [cp15Select, if_neg hid, if_neg hctl, if_neg htrace, if_neg hcfg]
  split
  · rfl
  split
  · rfl
  split <;> rfl

/-- Settles O41, register by register. -/
theorem cp15ReadsItsRegisters : Obligations.Cp15ReadsItsRegisters := by
  unfold Obligations.Cp15ReadsItsRegisters
  intro c rd o1 op2 crn crm s hc hp hrd reads bit size
  refine ⟨fun h2 => ?id, ?tcm, ?control, ?trace, ?config, fun hid hctl htrace hcfg => ?refused⟩
  case id => exact deviceId_eq s ▸ mrc15_computes hc hp hrd (by rw [cp15Select, if_pos ⟨rfl, rfl, rfl⟩, if_neg h2]; rfl)
  case tcm => exact tcmSizeWord_eq s ▸ mrc15_computes hc hp hrd rfl
  case control => exact Control.toWord_eq s.ctl ▸ mrc15_computes hc hp hrd rfl
  case trace => exact mrc15_computes hc hp hrd rfl
  case config => exact ConfigCtl.toWord_eq s.cfg ▸ mrc15_computes hc hp hrd rfl
  case refused => exact mrc15_refused hc hp hrd (cp15Read_unlisted s hid hctl htrace hcfg)

end Sys2Proof.Machine

/-! PROOF. Loads of r15 (R39, R118, R331, R354): what a single load that completes brings, and the statement O32. -/

namespace Sys2Proof.Machine

/-! ### A data read that completes (R112, R123, R129, R130, R142) -/

/-- `t` is `s` after drains that change nothing that loads see. -/
def Drained (s t : State) : Prop :=
  t = { s with itcm := t.itcm, dtcm := t.dtcm, ahb := t.ahb, itcmWB := t.itcmWB, dtcmWB := t.dtcmWB, ahbWB := t.ahbWB,
               free := t.free } ∧ ∀ q, t.seen q = s.seen q

theorem drained_drainAhbAll {s : State} (h : s.CleanAhb) : Drained s s.drainAhbAll := by
  refine ⟨?_, State.seen_drainAhbAll s h⟩
  have hf : s.drainAhbAll = _ := ahbFrame_drainAhbAll s
  rw [hf]

theorem drained_drainTcmAll {s : State} {m : Tcm} (h : s.CleanTcm m) : Drained s (s.drainTcmAll m) := by
  have hf : s.drainTcmAll m = _ := tcmFrame_drainTcmAll s m
  refine ⟨by rw [hf], fun ⟨p, a⟩ => ?_⟩
  cases p with
  | tcm u => exact State.tcmByte_drainTcmAll s m u a h
  | ahb => rw [hf]; rfl

theorem drained_orderDrain {s : State} {m : Tcm} (h : s.CleanTcm m) : Drained s (s.orderDrain m) := by
  unfold State.orderDrain
  split
  · exact drained_drainTcmAll h
  · exact ⟨rfl, fun _ => rfl⟩

/-- A read that completes, with no pending store that meets an error, brings what memory holds, and drains (R123, R124, R129). -/
theorem readData_ready {s : State} {size : Nat} {priv : Bool} {a : Word} (hc : s.Clean) (ha : s.Answers .read size priv a) :
    ∃ t, readData size priv false a s = .ok (s.valueAt size a) t ∧ Drained s t := by
  obtain ⟨hahb, htcm⟩ := hc
  obtain ⟨-, -, hport⟩ := ha
  unfold readData State.valueAt State.places State.firstPlace
  cases hp : s.dataPort a with
  | tcm m =>
    rw [hp] at hport
    obtain ⟨hsize, herr⟩ := hport
    have hd := drained_orderDrain (htcm m)
    refine ⟨s.orderDrain m, ?_, hd⟩
    have hnoerr : ∀ k, (s.orderDrain m).tcmReadError m k size = false := fun k => by
      rw [State.tcmReadError, hd.1]
      simp only [herr, Bool.false_and]
    have hbyte : (s.orderDrain m).tcmByte m = fun k => s.seen (.tcm m, k) := funext fun k => hd.2 (.tcm m, k)
    simp only [if_neg hsize, hnoerr, Bool.false_eq_true, if_false, hbyte, List.map_map]
    rfl
  | ahb =>
    rw [hp] at hport
    have hd := drained_drainAhbAll hahb
    refine ⟨s.drainAhbAll, ?_, hd⟩
    have hfirst : s.firstPlace size a = lane s.ctl.b size (forced size a) := by
      simp only [State.firstPlace, hp]
    have hnoerr : s.drainAhbAll.ahbError (readKind false) (lane s.ctl.b size (forced size a)) size priv = false := by
      rw [State.ahbError_congr s _ (by rw [hd.1]), ← hfirst]
      exact hport
    have hbyte : s.drainAhbAll.ahbByte = fun k => s.seen (.ahb, k) := funext fun k => by
      rw [← hd.2 (.ahb, k), State.seen, drainAhbAll_ahbWB]
      rfl
    simp only [hnoerr, Bool.false_eq_true, if_false, hbyte, List.map_map]
    rfl

/-- A load that completes with no watchpoint looked for is its read (R118, R604). -/
theorem loadData_ready {s : State} {size : Nat} {priv : Bool} {a : Word} (h : s.LoadReady size priv a) :
    ∃ t, loadData size priv false a s = .ok (s.valueAt size a) t ∧ Drained s t := by
  obtain ⟨hc, ha, -⟩ := h
  obtain ⟨t, ht, hd⟩ := readData_ready hc ha
  obtain ⟨halign, hwatch, -⟩ := ha
  refine ⟨t, ?_, hd⟩
  simp only [loadData, halign, hwatch, Bool.not_false, Bool.false_eq_true, if_false, if_true, ht]

/-! ### The write-back (R350) -/

theorem Drained.brings {s t : State} (h : Drained s t) : Brings [] s t := by
  obtain ⟨hf, hseen⟩ := h
  exact ⟨⟨nofun, fun p _ => by rw [hf]; rfl⟩, ⟨nofun, fun q _ => hseen q⟩, by rw [hf], by rw [hf], by rw [hf],
    by rw [SystemStays, hf]⟩

/-- A write of a register other than r15 after drains. -/
theorem Drained.brings_setReg {s t : State} (h : Drained s t) {rn : Reg} (hrn : rn ≠ 15) (w : Word) :
    Brings [(s.phys rn, w)] s (t.setReg rn w) := by
  obtain ⟨⟨-, hget⟩, ⟨-, hmem⟩, hcpsr, hspsrs, hun, hsys⟩ := h.brings
  have hset : t.setReg rn w = t.setPhys (s.phys rn) w := by
    rw [State.setReg, if_neg hrn, State.phys, hcpsr]
  rw [hset]
  refine ⟨⟨by simp, fun p hp => ?_⟩, ⟨nofun, hmem⟩, hcpsr, hspsrs, hun, ?_⟩
  · rw [State.getPhys_setPhys, if_neg (by simpa using hp)]
    exact hget p nofun
  · rw [SystemStays] at hsys ⊢
    rw [hsys]
    rfl

/-! ### A single load of r15 (R354) -/

/-- The addressing modes write back no r15: that is an UNPREDICTABLE combination (R182). -/
def Address.FitsBase (x : Address) (rn : Reg) : Prop := ∀ w, x.wb = some w → rn ≠ 15

theorem addressing_fitsBase {p u w : Bool} {base offset : Word} {rn : Reg} (h : (!p || w) = true → rn ≠ 15) :
    (addressing p u w base offset).FitsBase rn := by
  intro v hv
  refine h ?_
  by_contra hno
  simp [addressing, hno] at hv

/-- No case of a check that finds nothing holds. -/
theorem firstOf_none {l : List (Bool × Unpred)} (h : firstOf l = none) : ∀ x ∈ l, x.1 = false := by
  induction l with
  | nil => nofun
  | cons x r ih =>
    rw [firstOf] at h
    split at h
    · cases h
    · exact List.forall_mem_cons.mpr ⟨eq_false_of_ne_true ‹_›, ih h⟩

theorem mode2ImmCheck_base {noPc p w : Bool} {rn rd : Reg} (h : mode2ImmCheck noPc p w rn rd = none) (hw : (!p || w) = true) :
    rn ≠ 15 := by
  have hbase := firstOf_none h ((!p || w) && rn == 15, .pcBase) (by simp)
  simpa [hw] using hbase

theorem mode2RegCheck_base {noPc p w : Bool} {rn rd rm : Reg} (h : mode2RegCheck noPc p w rn rd rm = none)
    (hw : (!p || w) = true) : rn ≠ 15 := by
  have hbase := firstOf_none h ((!p || w) && rn == 15, .pcBase) (by simp)
  simpa [hw] using hbase

/-- A word at an aligned address comes unrotated (R353). -/
theorem word_extend_aligned {a : Word} (h : a.toNat % 4 = 0) (v : Word) : LoadKind.extend .word a v = v := by
  show ror v (8 * (a.toNat % 4)) = v
  rw [h]
  exact BitVec.eq_of_getLsbD_eq fun i hi => by simp [ror, hi]

/-- LDR of r15 that completes: the word goes to the pc, after the write-back (R354). -/
theorem loadSingle_pc {s : State} {priv : Bool} {rn : Reg} {x : Address} (hx : x.FitsBase rn) (ha : x.addr.toNat % 4 = 0)
    (h : s.LoadReady 4 priv x.addr) :
    ∃ u, loadSingle .word priv rn 15 x s = loadPc (s.valueAt 4 x.addr) u ∧ Brings (s.back rn x) s u := by
  obtain ⟨t, ht, hd⟩ := loadData_ready h
  have halign : misaligned 4 x.addr = false := by rw [misaligned, ha]; rfl
  simp only [loadSingle, State.halfRefused, LoadKind.size, halign, ht, word_extend_aligned ha, State.back, Acc.finish,
    Bool.and_false, Bool.false_and, Bool.false_eq_true, if_false, if_true, Nat.reduceBEq]
  cases hw : x.wb with
  | none => exact ⟨t, rfl, hd.brings⟩
  | some w => exact ⟨_, rfl, hd.brings_setReg (hx w hw) w⟩

/-- LDR of r15 from a misaligned address with A = 0 is refused (R118, U3). -/
theorem loadSingle_misaligned {s : State} {priv : Bool} {rn : Reg} {x : Address} (ha : x.addr.toNat % 4 ≠ 0)
    (hA : s.ctl.a = false) : loadSingle .word priv rn 15 x s = unpredictable .misalignedPcLoad := by
  have halign : misaligned 4 x.addr = true := by simpa [misaligned] using ha
  simp [loadSingle, State.halfRefused, LoadKind.size, halign, hA]

/-- Both forms of LDR, their operands no UNPREDICTABLE combination, are a single load whose write-back spares r15 (R352, R182). -/
theorem exec_ldr {c : Cond} {p u w : Bool} {rn rd rm : Reg} {off : BitVec 12} {sa : BitVec 5} {sh : Shift} {s : State} {i : Instr}
    {x : Address} (hc : s.cpsr.passes c = true) (hcheck : i.check = none)
    (hi : i = .ldrImm c p u w rn rd off ∧ x = s.mode2Imm p u w rn off ∨
      i = .ldrReg c p u w rn rd sa sh rm ∧ x = s.mode2Reg p u w rn sa sh rm) :
    exec i s = loadSingle .word s.priv rn rd x s ∧ x.FitsBase rn := by
  rcases hi with ⟨rfl, rfl⟩ | ⟨rfl, rfl⟩
  · refine ⟨?_, addressing_fitsBase (mode2ImmCheck_base hcheck)⟩
    show conditional c s (guarded (Instr.check (.ldrImm c p u w rn rd off)) _) = _
    rw [conditional_pass hc, hcheck, guarded_none]
  · refine ⟨?_, addressing_fitsBase (mode2RegCheck_base hcheck)⟩
    show conditional c s (guarded (Instr.check (.ldrReg c p u w rn rd sa sh rm)) _) = _
    rw [conditional_pass hc, hcheck, guarded_none]

/-! ### The pc that a load brings (R331) -/

theorem loadPc_lt {s : State} (v : Word) (hlt : s.ctl.lt = true) (ht : s.cpsr.t = false) :
    loadPc v s = .next (s.branchTo (clearLow 2 v)) := by
  simp only [loadPc, hlt, ht, Bool.not_true, Bool.false_eq_true, if_false]

theorem loadPc_exchange {s : State} {v : Word} (hlt : s.ctl.lt = false) (hv : v.toNat % 4 ≠ 2) :
    loadPc v s = .next ((s.setT (v.getLsbD 0)).branchTo (clearLow 1 v)) := by
  simp only [loadPc, writePcExchange, hlt, Bool.not_false, if_true, if_neg (mt (low_two_refused_iff v).mp hv)]

theorem loadPc_refused {s : State} {v : Word} (hlt : s.ctl.lt = false) (hv : v.toNat % 4 = 2) :
    loadPc v s = unpredictable .target := by
  simp only [loadPc, writePcExchange, hlt, Bool.not_false, if_true, if_pos ((low_two_refused_iff v).mpr hv)]

/-- Settles O32: the load goes on to the pc with its word, and the clauses are those of LT and of the word's low two bits. -/
theorem loadsOfThePcBranch : Obligations.LoadsOfThePcBranch := by
  unfold Obligations.LoadsOfThePcBranch
  intro c p u w rn rm off sa sh s i x hc ht hcheck hi v
  obtain ⟨hexec, hx⟩ := exec_ldr hc hcheck hi
  rw [hexec]
  refine ⟨fun ha hready => ?_, fun ha hA => loadSingle_misaligned ha hA⟩
  obtain ⟨t, (hload : _ = loadPc v t), hb⟩ := loadSingle_pc hx ha hready
  have hcpsr := hb.cpsr
  have hlt := hb.ctl
  rw [hload]
  clear_value v
  refine ⟨fun h => ?lt, fun h hbit => ?thumb, fun h hv => ?arm, fun h hv => loadPc_refused (by rw [hlt, h]) hv⟩
  case lt =>
    rw [loadPc_lt v (by rw [hlt, h]) (by rw [hcpsr, ht]), ← hcpsr]
    exact hb.gives_branch t.cpsr _
  case thumb =>
    have hodd : v.toNat % 2 = 1 := of_decide_eq_true ((bit_zero_eq v).symm.trans hbit)
    rw [loadPc_exchange (by rw [hlt, h]) (by omega), hbit, ← hcpsr]
    exact hb.gives_branch { t.cpsr with t := true } _
  case arm =>
    have hbit : v.getLsbD 0 = t.cpsr.t := by
      rw [hcpsr, ht, bit_zero_eq]
      exact decide_eq_false (by omega)
    have heven : clearLow 1 v = v := BitVec.eq_of_toNat_eq (by rw [clearLow_one_toNat]; omega)
    rw [loadPc_exchange (by rw [hlt, h]) (by omega), hbit, heven, ← hcpsr]
    exact hb.gives_branch t.cpsr _

end Sys2Proof.Machine

/-! PROOF. Data accesses that complete (R104, R112, R118, R120 to R130): the bytes of a word, the frame of an access, what a read and
a write make of memory as loads see it; the statement O40. -/

namespace Sys2Proof.Machine

/-! ### Words and their bytes -/

@[simp] theorem mem_span {n : Nat} : ∀ {a k : Nat}, k ∈ span a n ↔ a ≤ k ∧ k < a + n := by
  induction n with
  | zero => intro a k; simp [span]
  | succ n ih =>
    intro a k
    rw [span, List.mem_cons, ih]
    omega

@[simp] theorem span_length (n : Nat) : ∀ a : Nat, (span a n).length = n := by
  induction n with
  | zero => exact fun _ => rfl
  | succ n ih => exact fun a => congrArg (· + 1) (ih (a + 1))

theorem span_getElem? (n : Nat) : ∀ a i : Nat, (span a n)[i]? = if i < n then some (a + i) else none := by
  induction n with
  | zero => intro a i; simp [span]
  | succ n ih =>
    intro a i
    cases i with
    | zero => simp [span]
    | succ i =>
      rw [span, List.getElem?_cons_succ, ih]
      simp [show a + 1 + i = a + (i + 1) by omega]

/-- A list of `n` bytes read place by place is the bytes of a word where each byte is. -/
theorem map_span_eq_wordBytes {f : Nat → Byte} {k n : Nat} {v : Word} (h : ∀ j < n, f (k + j) = Machine.byteAt v j) :
    (span k n).map f = wordBytes v n := by
  refine List.ext_getElem? fun i => ?_
  rw [List.getElem?_map, span_getElem?, wordBytes_getElem?]
  split
  · rw [Option.map_some, h i ‹_›]
  · rfl

/-- The word of the low bytes of a word, bit by bit. -/
theorem ofBytes_wordBytes_getLsbD (n : Nat) : ∀ (v : Word) (i : Nat),
    (ofBytes (wordBytes v n)).getLsbD i = (decide (i < 8 * n) && v.getLsbD i) := by
  induction n with
  | zero => intro v i; simp [wordBytes, ofBytes]
  | succ n ih =>
    intro v i
    simp only [wordBytes, ofBytes, BitVec.getLsbD_or, BitVec.getLsbD_setWidth, BitVec.getLsbD_shiftLeft, ih,
      BitVec.getLsbD_ushiftRight]
    by_cases hi : i < 32
    · by_cases h8 : i < 8
      · have hn : i < 8 * (n + 1) := by omega
        simp [hi, h8, hn]
      · have hshift : 8 + (i - 8) = i := by omega
        have hlt : i - 8 < 8 * n ↔ i < 8 * (n + 1) := by omega
        simp [hi, h8, hshift, hlt]
    · have hv : v.getLsbD i = false := BitVec.getLsbD_of_ge v i (by omega)
      have h8 : ¬ i < 8 := by omega
      simp [hi, h8, hv]

/-- The word of the low `n` bytes of a word is that word under a mask. -/
theorem ofBytes_wordBytes (v : Word) (n : Nat) :
    ofBytes (wordBytes v n) = v &&& BitVec.ofNat 32 (2 ^ (8 * n) - 1) := by
  refine BitVec.eq_of_getLsbD_eq fun i hi => ?_
  rw [ofBytes_wordBytes_getLsbD, BitVec.getLsbD_and, BitVec.getLsbD_ofNat, Nat.testBit_two_pow_sub_one, decide_eq_true hi,
    Bool.true_and, Bool.and_comm]

/-- A byte of the low bytes of a word is the byte of the word. -/
theorem byteAt_ofBytes_wordBytes (v : Word) {n j : Nat} (hj : j < n) :
    Machine.byteAt (ofBytes (wordBytes v n)) j = Machine.byteAt v j := by
  refine BitVec.eq_of_getLsbD_eq fun i hi => ?_
  have hlt : 8 * j + i < 8 * n := by omega
  simp only [Machine.byteAt, BitVec.getLsbD_extractLsb', ofBytes_wordBytes_getLsbD, decide_eq_true hlt, Bool.true_and]

/-! ### The frame of data accesses -/

/-- `t` differs from `s` in the contents of the memories and their buffers alone, and in the counter of free values. -/
def MemFrame (s t : State) : Prop :=
  t = { s with itcm := t.itcm, dtcm := t.dtcm, ahb := t.ahb, itcmWB := t.itcmWB, dtcmWB := t.dtcmWB, ahbWB := t.ahbWB,
               free := t.free }

theorem MemFrame.refl (s : State) : MemFrame s s := rfl

theorem MemFrame.trans {s t u : State} (h : MemFrame s t) (k : MemFrame t u) : MemFrame s u := by
  unfold MemFrame at *
  rw [k, h]

theorem TcmFrame.mem {s t : State} (h : TcmFrame s t) : MemFrame s t := by
  unfold TcmFrame MemFrame at *
  rw [h]

theorem AhbFrame.mem {s t : State} (h : AhbFrame s t) : MemFrame s t := by
  unfold AhbFrame MemFrame at *
  rw [h]

section
variable {s t : State} (h : MemFrame s t)
include h

theorem MemFrame.inside : t.inside = s.inside := by rw [h]
theorem MemFrame.watched : t.watched = s.watched := by rw [h]; rfl
theorem MemFrame.alignFault (size : Nat) (a : Word) : t.alignFault size a = s.alignFault size a := by rw [h]; rfl
theorem MemFrame.dataPort (a : Word) : t.dataPort a = s.dataPort a := by rw [h]; rfl
theorem MemFrame.places (size : Nat) (a : Word) : t.places size a = s.places size a := by rw [h]; rfl
theorem MemFrame.ahbError (k : AhbKind) (a n : Nat) (priv : Bool) : t.ahbError k a n priv = s.ahbError k a n priv := by rw [h]; rfl
theorem MemFrame.tcmWriteError (m : Tcm) (o : Nat) : t.tcmWriteError m o = s.tcmWriteError m o := by rw [h]; cases m <;> rfl

theorem MemFrame.answers {d : Dir} {size : Nat} {priv : Bool} {a : Word} (ha : s.Answers d size priv a) :
    t.Answers d size priv a := by
  rw [h]
  exact ha

/-- Buffers that have only lost entries are as clean as before (R143, R146). -/
theorem MemFrame.clean (hs : Shrinks s t) (hc : s.Clean) : t.Clean := by
  obtain ⟨hahb, htcm⟩ := hc
  refine ⟨fun e he => ?_, fun m e he => ?_⟩
  · rw [h.ahbError]
    exact hahb e (hs.ahb.subset he)
  · rw [h.tcmWriteError]
    exact htcm m e ((hs.tcm m).subset he)

end

/-- The places of an access: at its port, from its lowest place up. -/
theorem mem_places {s : State} {size : Nat} {a : Word} {q : Place} :
    q ∈ s.places size a ↔ q.1 = s.dataPort a ∧ s.firstPlace size a ≤ q.2 ∧ q.2 < s.firstPlace size a + size := by
  obtain ⟨p, k⟩ := q
  simp only [State.places, List.mem_map, mem_span, Prod.mk.injEq]
  constructor
  · rintro ⟨j, hj, rfl, rfl⟩
    exact ⟨rfl, hj⟩
  · rintro ⟨rfl, hj⟩
    exact ⟨k, hj, rfl, rfl⟩

/-! ### Reads -/

/-- `t` is `s` after reads: drains that change nothing that loads see and leave no other pending stores than there were. -/
structure Reads (s t : State) : Prop where
  frame : MemFrame s t
  seen : ∀ q, t.seen q = s.seen q
  clean : s.Clean → t.Clean

theorem Reads.refl (s : State) : Reads s s := ⟨.refl s, fun _ => rfl, id⟩

theorem Reads.trans {s t u : State} (h : Reads s t) (k : Reads t u) : Reads s u :=
  ⟨h.frame.trans k.frame, fun q => (k.seen q).trans (h.seen q), k.clean ∘ h.clean⟩

theorem Reads.valueAt {s t : State} (h : Reads s t) (size : Nat) (a : Word) : t.valueAt size a = s.valueAt size a := by
  rw [State.valueAt, h.frame.places, funext h.seen, State.valueAt]

theorem Drained.reads {s t : State} (h : Drained s t) (hs : Shrinks s t) : Reads s t :=
  ⟨h.1, h.2, MemFrame.clean h.1 hs⟩

/-- A read at most drains. -/
theorem readData_shrinks {size : Nat} {priv swap : Bool} {a v : Word} {s t : State} (h : readData size priv swap a s = .ok v t) :
    Shrinks s t := by
  unfold readData at h
  dsimp only at h
  split at h
  next m _ =>
    split at h
    · cases h
    split at h
    · cases h
    cases h
    exact shrinks_orderDrain s m
  next =>
    split at h
    · cases h
    cases h
    exact shrinks_drainAhbAll s

theorem reads_drainAhbAll {s : State} (hc : s.Clean) : Reads s s.drainAhbAll :=
  (drained_drainAhbAll hc.1).reads (shrinks_drainAhbAll s)

/-- Once the buffer has drained, AHB memory holds what loads see there. -/
theorem drainAhbAll_ahbByte {s : State} (hc : s.Clean) : s.drainAhbAll.ahbByte = fun k => s.seen (.ahb, k) := funext fun k => by
  rw [← (reads_drainAhbAll hc).seen (.ahb, k), State.seen, drainAhbAll_ahbWB]
  rfl

/-- What a read from the AHB brings, after the drain of the buffer (R123, R142). -/
theorem readData_ahb {s : State} {size : Nat} {priv swap : Bool} {a : Word} (hc : s.Clean) (hp : s.dataPort a = .ahb) :
    readData size priv swap a s = if s.ahbError (readKind swap) (s.firstPlace size a) size priv then .abort s.drainAhbAll
      else .ok (s.valueAt size a) s.drainAhbAll := by
  have hr := reads_drainAhbAll hc
  have hfirst : s.firstPlace size a = lane s.ctl.b size (forced size a) := by
    simp only [State.firstPlace, hp]
  have hvalue : s.valueAt size a = ofBytes ((span (s.firstPlace size a) size).map s.drainAhbAll.ahbByte) := by
    rw [State.valueAt, State.places, List.map_map, drainAhbAll_ahbByte hc, hp]
    rfl
  simp only [readData, hp, hr.frame.ahbError, hvalue, hfirst]

/-- The direction of a read, and of the read half of a swap. -/
def readDir (swap : Bool) : Dir := if swap then .swapRead else .read

/-- The direction of a write, and of the write half of a swap. -/
def writeDir (swap : Bool) : Dir := if swap then .swapWrite else .write

theorem busKind_readDir (s : State) (swap : Bool) (a : Word) : s.busKind (readDir swap) a = readKind swap := by
  cases swap <;> rfl

theorem busKind_writeDir (s : State) (swap : Bool) (a : Word) : s.busKind (writeDir swap) a = s.writeKind a swap := by
  cases swap <;> rfl

/-- A read that completes brings what memory holds (R112, R123, R124, R129). -/
theorem readData_completes {s : State} {size : Nat} {priv swap : Bool} {a : Word} (hc : s.Clean)
    (ha : s.Answers (readDir swap) size priv a) :
    ∃ t, readData size priv swap a s = .ok (s.valueAt size a) t ∧ Reads s t := by
  obtain ⟨halign, hwatch, hport⟩ := ha
  cases hp : s.dataPort a with
  | tcm m =>
    have hread : s.Answers .read size priv a := by
      refine ⟨halign, hwatch, ?_⟩
      rw [hp] at hport ⊢
      exact hport
    obtain ⟨t, ht, hd⟩ := readData_ready hc hread
    refine ⟨t, ?_, hd.reads (readData_shrinks ht)⟩
    rw [← ht]
    simp only [readData, hp]
  | ahb =>
    rw [hp, busKind_readDir] at hport
    refine ⟨s.drainAhbAll, ?_, reads_drainAhbAll hc⟩
    rw [readData_ahb hc hp, if_neg (ne_true_of_eq_false hport)]

/-- With no alignment fault and no watchpoint looked for a load is its read (R118, R604). -/
theorem loadData_eq_readData {s : State} {size : Nat} {a : Word} (priv swap : Bool) (hf : s.alignFault size a = false)
    (hw : s.watched = false) : loadData size priv swap a s = readData size priv swap a s := by
  rw [loadData, hf, hw]
  rfl

/-- A load that completes brings what memory holds. -/
theorem loadData_completes {s : State} {size : Nat} {priv swap : Bool} {a : Word} (hc : s.Clean)
    (ha : s.Answers (readDir swap) size priv a) :
    ∃ t, loadData size priv swap a s = .ok (s.valueAt size a) t ∧ Reads s t := by
  rw [loadData_eq_readData priv swap ha.1 ha.2.1]
  exact readData_completes hc ha

/-! ### Writes -/

/-- `t` is `s` after stores: the places of the stores hold their bytes, every other byte is as before, and no new pending store
meets an error. -/
structure Writes (writes : List Store) (s t : State) : Prop where
  frame : MemFrame s t
  memory : MemoryBecomes writes s t
  clean : t.Clean

theorem Reads.writes {s t : State} (h : Reads s t) (hc : s.Clean) : Writes [] s t :=
  ⟨h.frame, ⟨nofun, fun q _ => h.seen q⟩, h.clean hc⟩

/-- Stores after stores to other places. -/
theorem Writes.append {ws vs : List Store} {s t u : State} (h : Writes ws s t) (k : Writes vs t u)
    (hd : ∀ w ∈ ws, ∀ v ∈ vs, ∀ q ∈ s.places w.size w.addr, q ∉ s.places v.size v.addr) : Writes (ws ++ vs) s u := by
  obtain ⟨hin, hout⟩ := h.memory
  obtain ⟨kin, kout⟩ := k.memory
  simp only [h.frame.places] at kin kout
  refine ⟨h.frame.trans k.frame, ⟨fun w hw => ?_, fun q hq => ?_⟩, k.clean⟩
  · rcases List.mem_append.mp hw with hw | hw
    · rw [← hin w hw]
      exact List.map_congr_left fun q hq => kout q fun v hv => hd w hw v hv q hq
    · exact kin w hw
  · rw [kout q fun v hv => hq v (List.mem_append_right _ hv), hout q fun w hw => hq w (List.mem_append_left _ hw)]

/-- The byte that a write of the low `size` bytes of `v` from the place `k` up puts at the place `o`, if it covers it. -/
def putByte? (k size : Nat) (v : Word) (o : Nat) : Option Byte :=
  if k ≤ o ∧ o < k + size then some (Machine.byteAt v (o - k)) else none

/-- Bytes that are seen as a store puts them, at its port and from its lowest place up. -/
theorem memoryBecomes_of_seen {s t : State} {size : Nat} {a v : Word}
    (h : ∀ q, t.seen q = if q.1 = s.dataPort a then
      (putByte? (s.firstPlace size a) size (ofBytes (wordBytes v size)) q.2).getD (s.seen q) else s.seen q) :
    MemoryBecomes [⟨a, size, v⟩] s t := by
  refine ⟨fun w hw => ?_, fun q hq => ?_⟩
  · obtain rfl := List.mem_singleton.mp hw
    dsimp only
    rw [State.places, List.map_map]
    refine map_span_eq_wordBytes fun j hj => ?_
    have hin : s.firstPlace size a ≤ s.firstPlace size a + j ∧ s.firstPlace size a + j < s.firstPlace size a + size := by omega
    rw [Function.comp_apply, h, if_pos rfl, putByte?, if_pos hin, Option.getD_some, Nat.add_sub_cancel_left,
      byteAt_ofBytes_wordBytes v hj]
  · have hout := hq _ (List.mem_singleton_self _)
    rw [mem_places] at hout
    rw [h]
    split
    · rw [putByte?, if_neg fun hin => hout ⟨‹_›, hin⟩, Option.getD_none]
    · rfl

/-- A write that arrives on the AHB with nothing pending is seen at once (R123). -/
theorem seen_putAhb {s : State} {k : AhbKind} {a n : Nat} {v : Word} {priv : Bool} (hb : s.ahbWB = [])
    (he : s.ahbError k a n priv = false) (q : Place) : (s.putAhb k a n v priv).seen q =
      if q.1 = .ahb then (putByte? a n v q.2).getD (s.seen q) else s.seen q := by
  rw [State.putAhb_ok _ _ _ _ _ _ he]
  obtain ⟨p, o⟩ := q
  cases p with
  | tcm m => cases m <;> rfl
  | ahb =>
    have hget := Memory.get?_ahbEntry s.ahb ⟨a, n, v, false, priv⟩ o
    simp only [State.seen, State.ahbByte, hb, ahbBufferByte, if_true] at hget ⊢
    rw [hget]
    show ((putByte? a n v o).or _).getD _ = _
    cases putByte? a n v o <;> rfl

/-- A pending store of an AHB write buffer after a push is the new one or one of before (R121). -/
theorem mem_pushAhb {s : State} {e x : AhbEntry} (h : x ∈ (s.pushAhb e).ahbWB) : x = e ∨ x ∈ s.ahbWB := by
  have hwait : ∀ (n : Nat) (s : State), (s.waitAhb e.first n).ahbWB.Sublist s.ahbWB := by
    intro n
    induction n with
    | zero => exact fun s => .refl _
    | succ n ih =>
      intro s
      rw [State.waitAhb]
      split
      · exact .refl _
      · exact (ih s.drainAhb).trans (shrinks_drainAhb s).ahb
  rcases List.mem_append.mp h with h | h
  · exact .inr ((hwait _ s).subset h)
  · exact .inl (List.mem_singleton.mp h)

/-- A push to the AHB write buffer leaves the TCM write buffers alone. -/
theorem pushAhb_tcmWB (s : State) (e : AhbEntry) (m : Tcm) : (s.pushAhb e).tcmWB m = s.tcmWB m := by
  rw [ahbFrame_pushAhb s e]
  cases m <;> rfl

/-- A store enters the write buffer of a TCM that exists, has no error support and nothing in error pending (R112, R128, R129). -/
theorem writeData_tcm {s : State} {size : Nat} {priv opened swap : Bool} {a v : Word} {m : Tcm} (hc : s.Clean)
    (hp : s.dataPort a = .tcm m) (hsize : s.tcmSize m ≠ 0) (herr : s.params.tcmErrors = false) :
    ∃ t, writeData size priv opened swap a v s = .ok false t ∧ Writes [⟨a, size, v⟩] s t := by
  obtain ⟨hahb, htcm⟩ := hc
  have hfirst : s.firstPlace size a = lane s.ctl.b size (s.tcmOffset m (forced size a)) := by
    simp only [State.firstPlace, hp]
  have hf (e : TcmEntry) : TcmFrame s (s.pushTcm m e) := tcmFrame_pushTcm s m e
  simp only [writeData, hp, if_neg hsize, ← hfirst]
  refine ⟨_, rfl, (hf _).mem, memoryBecomes_of_seen fun ⟨p, o⟩ => ?_, fun e he => ?_, fun u e _ => ?_⟩
  · rw [hp]
    cases p with
    | ahb =>
      rw [hf]
      rfl
    | tcm u =>
      simp only [State.seen, State.tcmByte_pushTcm s m u _ o (htcm m), Port.tcm.injEq]
      split
      · subst u; rfl
      · rfl
  · rw [hf] at he ⊢
    exact hahb e he
  · rw [(hf _).mem.tcmWriteError, State.tcmWriteError, herr]
    rfl

/-- A store enters the AHB write buffer (R120, R121, R124). -/
theorem writeData_buffered {s : State} {size : Nat} {priv opened swap : Bool} {a v : Word} (hc : s.Clean)
    (hp : s.dataPort a = .ahb) (hb : s.buffered a swap = true)
    (he : s.ahbError .buffered (s.firstPlace size a) size priv = false) :
    ∃ t, writeData size priv opened swap a v s = .ok true t ∧ Writes [⟨a, size, v⟩] s t := by
  obtain ⟨hahb, htcm⟩ := hc
  have hfirst : s.firstPlace size a = lane s.ctl.b size (forced size a) := by
    simp only [State.firstPlace, hp]
  have hf (e : AhbEntry) : MemFrame s (s.pushAhb e) := (ahbFrame_pushAhb s e).mem
  simp only [writeData, hp, hb, if_true, ← hfirst]
  refine ⟨_, rfl, hf _, memoryBecomes_of_seen fun q => ?_, fun e hmem => ?_, fun u e hmem => ?_⟩
  · rw [State.seen_pushAhb s hahb, hp]
    rfl
  · rw [(hf _).ahbError]
    rcases mem_pushAhb hmem with rfl | hmem
    · exact he
    · exact hahb e hmem
  · rw [(hf _).tcmWriteError]
    exact htcm u e (pushAhb_tcmWB s _ u ▸ hmem)

/-- A store that is not buffered arrives on the AHB after the drain of the buffer (R120, R123, R142). -/
theorem writeData_unbuffered {s : State} {size : Nat} {priv opened swap : Bool} {a v : Word} (hc : s.Clean)
    (hp : s.dataPort a = .ahb) (hb : s.buffered a swap = false)
    (he : s.ahbError (s.writeKind a swap) (s.firstPlace size a) size priv = false) :
    ∃ t, writeData size priv opened swap a v s = .ok false t ∧ Writes [⟨a, size, v⟩] s t := by
  have hfirst : s.firstPlace size a = lane s.ctl.b size (forced size a) := by
    simp only [State.firstPlace, hp]
  have hr := reads_drainAhbAll hc
  have hdrain := hr.frame.ahbError (s.writeKind a swap) (s.firstPlace size a) size priv
  rw [he] at hdrain
  simp only [writeData, hp, hb, Bool.false_eq_true, if_false, ← hfirst, hdrain]
  have hf := hr.frame.trans (ahbFrame_putAhb s.drainAhbAll (s.writeKind a swap) (s.firstPlace size a) size
    (ofBytes (wordBytes v size)) priv).mem
  refine ⟨_, rfl, hf, memoryBecomes_of_seen fun q => ?_, hf.clean ((shrinks_drainAhbAll s).trans (shrinks_putAhb ..)) hc⟩
  rw [seen_putAhb (drainAhbAll_ahbWB s) hdrain, hr.seen, hp]

/-- The kind of transfer of a buffered store, which is not that of a swap (R120, R125). -/
theorem writeKind_of_buffered {s : State} {a : Word} {swap : Bool} (h : s.buffered a swap = true) :
    s.writeKind a swap = .buffered := by
  cases swap with
  | false => rw [State.writeKind, h]; rfl
  | true => simp [State.buffered] at h

/-- A write that completes is seen at once, and nothing else changes for loads (R112, R120 to R124, R128, R129). -/
theorem writeData_completes {s : State} {size : Nat} {priv swap : Bool} {a : Word} (opened : Bool) (v : Word) (hc : s.Clean)
    (ha : s.Answers (writeDir swap) size priv a) :
    ∃ b t, writeData size priv opened swap a v s = .ok b t ∧ Writes [⟨a, size, v⟩] s t := by
  obtain ⟨-, -, hport⟩ := ha
  cases hp : s.dataPort a with
  | tcm m =>
    rw [hp] at hport
    exact ⟨false, writeData_tcm hc hp hport.1 hport.2⟩
  | ahb =>
    rw [hp, busKind_writeDir] at hport
    cases hb : s.buffered a swap with
    | true => exact ⟨true, writeData_buffered hc hp hb (writeKind_of_buffered hb ▸ hport)⟩
    | false => exact ⟨false, writeData_unbuffered hc hp hb hport⟩

/-- With no alignment fault and no watchpoint looked for a store is its write (R118, R604). -/
theorem storeData_eq_writeData {s : State} {size : Nat} {a : Word} (priv opened swap : Bool) (v : Word)
    (hf : s.alignFault size a = false) (hw : s.watched = false) :
    storeData size priv opened swap a v s = writeData size priv opened swap a v s := by
  rw [storeData, hf, hw]
  rfl

/-- A store that completes is seen at once, and nothing else changes for loads. -/
theorem storeData_completes {s : State} {size : Nat} {priv swap : Bool} {a : Word} (opened : Bool) (v : Word) (hc : s.Clean)
    (ha : s.Answers (writeDir swap) size priv a) :
    ∃ b t, storeData size priv opened swap a v s = .ok b t ∧ Writes [⟨a, size, v⟩] s t := by
  rw [storeData_eq_writeData priv opened swap v ha.1 ha.2.1]
  exact writeData_completes opened v hc ha

/-- What a store has put is what a load reads (R124, R129). -/
theorem Writes.valueAt {s t : State} {size : Nat} {a v : Word} (h : Writes [⟨a, size, v⟩] s t) :
    t.valueAt size a = ofBytes (wordBytes v size) := by
  obtain ⟨hin, -⟩ := h.memory
  rw [State.valueAt, h.frame.places, hin ⟨a, size, v⟩ (List.mem_singleton_self _)]

/-- Settles O40: the store is seen at once, and the load brings what is seen. -/
theorem loadAfterStoreBringsTheValue : Obligations.LoadAfterStoreBringsTheValue := by
  unfold Obligations.LoadAfterStoreBringsTheValue
  intro size priv opened swap swap' a v s _ hc hwrite hread
  obtain ⟨b, t, hstore, hw⟩ := storeData_completes opened v hc hwrite
  obtain ⟨t', hload, -⟩ := loadData_completes (swap := swap') hw.clean (hw.frame.answers hread)
  refine ⟨b, t, t', hstore, ?_⟩
  rw [hload, hw.valueAt, ofBytes_wordBytes]

end Sys2Proof.Machine

/-! PROOF. Single loads and stores (R350 to R369, R480 to R497): what they bring and leave when the access completes; the statements
O29, O30 and O48. -/

namespace Sys2Proof.Machine

/-! ### The work of an instruction whose accesses complete -/

/-- `u` has the registers `dst` and holds the stores `writes`; the pc, the status registers, the other registers, the rest of memory
and everything else are those of `s`. -/
structure Done (dst : List (PhysReg × Word)) (writes : List Store) (s u : State) : Prop where
  pc : u.pc = s.pc
  cpsr : u.cpsr = s.cpsr
  spsrs : u.spsrs = s.spsrs
  unrecoverable : u.unrecoverable = s.unrecoverable
  regs : RegistersBecome dst s u
  memory : MemoryBecomes writes s u
  system : SystemStays s u

theorem Writes.done {writes : List Store} {s t : State} (h : Writes writes s t) : Done [] writes s t := by
  obtain ⟨hf, hm, -⟩ := h
  refine ⟨?_, ?_, ?_, ?_, ⟨nofun, fun p _ => ?_⟩, hm, ?_⟩
  case refine_6 => rw [SystemStays, hf]
  all_goals rw [hf]
  rfl

section
variable {dst : List (PhysReg × Word)} {writes : List Store} {s u : State} (h : Done dst writes s u)
include h

theorem Done.phys (r : Reg) : u.phys r = s.phys r := by rw [State.phys, h.cpsr, State.phys]

theorem Done.nextAddr : u.nextAddr = s.nextAddr := by
  simp only [State.nextAddr, State.instrLen, h.pc, h.cpsr]

/-- A write of one more physical register. -/
theorem Done.setPhys {p : PhysReg} (v : Word) (hp : p ∉ dst.map Prod.fst) : Done (dst ++ [(p, v)]) writes s (u.setPhys p v) := by
  obtain ⟨hpc, hcpsr, hspsrs, hun, ⟨hin, hout⟩, hmem, hsys⟩ := h
  refine ⟨hpc, hcpsr, hspsrs, hun, ⟨fun x hx => ?_, fun q hq => ?_⟩, hmem, ?_⟩
  · rw [State.getPhys_setPhys]
    rcases List.mem_append.mp hx with hx | hx
    · rw [if_neg fun e : x.1 = p => hp (e ▸ List.mem_map_of_mem hx), hin x hx]
    · obtain rfl := List.mem_singleton.mp hx
      rw [if_pos rfl]
  · simp only [List.map_append, List.map_cons, List.map_nil, List.mem_append, List.mem_singleton, not_or] at hq
    rw [State.getPhys_setPhys, if_neg hq.2, hout q hq.1]
  · rw [SystemStays] at hsys ⊢
    rw [hsys]
    rfl

/-- A write of one more register of the current mode. -/
theorem Done.setReg {r : Reg} (v : Word) (hr : r ≠ 15) (hp : s.phys r ∉ dst.map Prod.fst) :
    Done (dst ++ [(s.phys r, v)]) writes s (u.setReg r v) := by
  rw [State.setReg, if_neg hr, show physReg u.cpsr.m r = s.phys r from h.phys r]
  exact h.setPhys v hp

/-- The advance to the next instruction ends the work. -/
theorem Done.gives_advance (hazard : Bool) :
    Gives (.next { u.advance with bankHazard := hazard }) s s.nextAddr s.cpsr dst writes := by
  refine ⟨_, rfl, h.nextAddr, h.cpsr, h.regs, h.memory, h.spsrs, h.unrecoverable, ?_⟩
  have hsys := h.system
  rw [SystemStays] at hsys ⊢
  rw [hsys]
  rfl

end

/-- Writes of registers alone. -/
theorem Done.brings {dst : List (PhysReg × Word)} {s u : State} (h : Done dst [] s u) : Brings dst s u :=
  ⟨h.regs, h.memory, h.cpsr, h.spsrs, h.unrecoverable, h.system⟩

/-- The registers written, in another order. -/
theorem Done.congr {dst dst' : List (PhysReg × Word)} {writes : List Store} {s u : State} (h : Done dst writes s u)
    (hd : ∀ x, x ∈ dst' ↔ x ∈ dst) : Done dst' writes s u := by
  obtain ⟨hin, hout⟩ := h.regs
  refine { h with regs := ⟨fun x hx => hin x ((hd x).mp hx), fun p hp => hout p fun hm => hp ?_⟩ }
  obtain ⟨x, hx, rfl⟩ := List.mem_map.mp hm
  exact List.mem_map_of_mem ((hd x).mpr hx)

/-! ### The write-back (R182, R183, R350) -/

/-- A form that writes back has a base other than r15 and than the register transferred (R182, R183). -/
def Address.Spares (x : Address) (rn rd : Reg) : Prop := ∀ w, x.wb = some w → rn ≠ 15 ∧ rn ≠ rd

theorem Address.Spares.fitsBase {x : Address} {rn rd : Reg} (h : x.Spares rn rd) : x.FitsBase rn := fun w hw => (h w hw).1

/-- The checks of both addressing modes refuse a write-back to r15 and to the register transferred (R182, R183). -/
theorem addressing_spares {l : List (Bool × Unpred)} {p u w : Bool} {base offset : Word} {rn rd : Reg} (h : firstOf l = none)
    (hpc : ((!p || w) && rn == 15, Unpred.pcBase) ∈ l) (hrd : ((!p || w) && rn == rd, Unpred.baseIsDest) ∈ l) :
    (addressing p u w base offset).Spares rn rd := by
  intro v hv
  have hw : (!p || w) = true := by
    by_contra hno
    simp [addressing, hno] at hv
  have h1 := firstOf_none h _ hpc
  have h2 := firstOf_none h _ hrd
  simp only [hw, Bool.true_and, beq_eq_false_iff_ne, ne_eq] at h1 h2
  exact ⟨h1, h2⟩

/-- The write-back after the accesses. -/
theorem Writes.done_back {writes : List Store} {s t : State} {rn : Reg} {x : Address} (h : Writes writes s t)
    (hx : x.FitsBase rn) :
    Done (s.back rn x) writes s (t.backTo rn x.wb) := by
  unfold State.back State.backTo
  cases hw : x.wb with
  | none => exact h.done
  | some w => exact h.done.setReg w (hx w hw) List.not_mem_nil

theorem mem_back {s : State} {rn : Reg} {x : Address} {p : PhysReg} (h : p ∈ (s.back rn x).map Prod.fst) :
    (∃ w, x.wb = some w) ∧ p = s.phys rn := by
  unfold State.back at h
  split at h
  · exact ⟨⟨_, ‹_›⟩, by simpa using h⟩
  · simp at h

/-- Different registers are in different places of the current mode (R32). -/
theorem phys_ne {s : State} {r q : Reg} (hr : r ≠ 15) (hq : q ≠ 15) (h : r ≠ q) : s.phys r ≠ s.phys q :=
  fun e => h (physReg_injective s.cpsr.m r q hr hq e)

/-- A register other than a written-back base. -/
theorem Address.Spares.phys_not_mem {x : Address} {rn rd : Reg} (h : x.Spares rn rd) (s : State) (hrd : rd ≠ 15) :
    s.phys rd ∉ (s.back rn x).map Prod.fst := by
  intro hm
  obtain ⟨⟨w, hw⟩, he⟩ := mem_back hm
  obtain ⟨hn, hne⟩ := h w hw
  exact phys_ne hn hrd hne he.symm

/-! ### Single loads and stores that complete -/

theorem halfRefused_of_aligned {s : State} {size : Nat} {a : Word} (h : size = 2 → misaligned 2 a = false) :
    s.halfRefused size a = false := by
  by_cases hs : size = 2
  · rw [State.halfRefused, h hs, Bool.and_false]
  · rw [State.halfRefused, beq_false_of_ne hs, Bool.and_false, Bool.false_and]

/-- A single load that completes: the base as written back, and the register with what memory holds (R350). -/
theorem loadSingle_gives {k : LoadKind} {priv : Bool} {rn rd : Reg} {x : Address} {s : State} (hrd : rd ≠ 15) (hx : x.Spares rn rd)
    (h : s.LoadReady k.size priv x.addr) :
    Gives (loadSingle k priv rn rd x s) s s.nextAddr s.cpsr
      (s.back rn x ++ [(s.phys rd, k.extend x.addr (s.valueAt k.size x.addr))]) [] := by
  obtain ⟨hc, ha, hhalf⟩ := h
  obtain ⟨t, ht, hr⟩ := loadData_completes (swap := false) hc ha
  have hload : loadSingle k priv rn rd x s =
      .next ((t.backTo rn x.wb).setReg rd (k.extend x.addr (s.valueAt k.size x.addr))).advance := by
    simp only [loadSingle, halfRefused_of_aligned hhalf, beq_false_of_ne hrd, ht, Acc.finish, if_neg hrd, Bool.false_and,
      Bool.false_eq_true, if_false]
    rfl
  rw [hload]
  exact (((hr.writes hc).done_back hx.fitsBase).setReg _ hrd (hx.phys_not_mem s hrd)).gives_advance false

/-- A single store that completes: the base as written back, and the bytes stored (R350). -/
theorem storeSingle_gives {size : Nat} {priv : Bool} {rn : Reg} {x : Address} {v : Word} {s : State} (hx : x.FitsBase rn)
    (h : s.StoreReady size priv x.addr) :
    Gives (storeSingle size priv rn x v s) s s.nextAddr s.cpsr (s.back rn x) [⟨x.addr, size, v⟩] := by
  obtain ⟨hc, ha, hhalf⟩ := h
  obtain ⟨b, t, ht, hw⟩ := storeData_completes (swap := false) false v hc ha
  have hstore : storeSingle size priv rn x v s = .next (t.backTo rn x.wb).advance := by
    simp only [storeSingle, halfRefused_of_aligned hhalf, ht, Acc.finish, Bool.false_eq_true, if_false]
    rfl
  rw [hstore]
  exact (hw.done_back hx).gives_advance false

theorem halfRefused_of_odd {s : State} {a : Word} (hA : s.ctl.a = false) (ha : a.toNat % 2 = 1) : s.halfRefused 2 a = true := by
  simp [State.halfRefused, misaligned, hA, ha]

/-- A halfword load at an odd address with A = 0 is refused (R118, U3). -/
theorem loadSingle_half_refused {k : LoadKind} {priv : Bool} {rn rd : Reg} {x : Address} {s : State} (hk : k.size = 2)
    (hA : s.ctl.a = false) (ha : x.addr.toNat % 2 = 1) : loadSingle k priv rn rd x s = unpredictable .misalignedHalf := by
  rw [loadSingle, hk, halfRefused_of_odd hA ha, if_pos rfl]

/-- A halfword store at an odd address with A = 0 is refused (R118, U3). -/
theorem storeSingle_half_refused {priv : Bool} {rn : Reg} {x : Address} {v : Word} {s : State} (hA : s.ctl.a = false)
    (ha : x.addr.toNat % 2 = 1) : storeSingle 2 priv rn x v s = unpredictable .misalignedHalf := by
  rw [storeSingle, halfRefused_of_odd hA ha, if_pos rfl]

/-! ### The values that loads bring (R353, R357, R366, R368, R369) -/

/-- A word of `n` bytes has no bits above them. -/
theorem ofBytes_getLsbD_of_ge (l : List Byte) : ∀ i, 8 * l.length ≤ i → (ofBytes l).getLsbD i = false := by
  induction l with
  | nil => intro i _; simp [ofBytes]
  | cons b r ih =>
    intro i hi
    rw [List.length_cons] at hi
    have hb : b.getLsbD i = false := BitVec.getLsbD_of_ge b i (by omega)
    have hr : (ofBytes r).getLsbD (i - 8) = false := ih _ (by omega)
    simp [ofBytes, hb, hr]

/-- A read of `n` bytes is no more than its low bits: cutting it to them and extending it by zeros changes nothing. -/
theorem valueAt_setWidth (s : State) (size : Nat) (a : Word) :
    ((s.valueAt size a).setWidth (8 * size)).setWidth 32 = s.valueAt size a := by
  refine BitVec.eq_of_getLsbD_eq fun i hi => ?_
  simp only [BitVec.getLsbD_setWidth, decide_eq_true hi, Bool.true_and]
  by_cases h : i < 8 * size
  · rw [decide_eq_true h, Bool.true_and]
  · rw [decide_eq_false h, Bool.false_and, State.valueAt]
    exact (ofBytes_getLsbD_of_ge _ i (by simpa [State.places] using h)).symm

theorem byte_extend_eq (s : State) (a : Word) : LoadKind.extend .byte a (s.valueAt 1 a) = s.loadByte false a :=
  valueAt_setWidth s 1 a

theorem half_extend_eq (s : State) (a : Word) : LoadKind.extend .half a (s.valueAt 2 a) = s.loadHalf false a :=
  valueAt_setWidth s 2 a

/-! ### The forms of addressing modes 2 and 3 -/

/-- An instruction whose condition passes and whose operands are no UNPREDICTABLE combination has its meaning (R20, R21). -/
theorem exec_of_check {i : Instr} {c : Cond} {s : State} {k : Result} (h : exec i s = conditional c s (guarded i.check k))
    (hc : s.cpsr.passes c = true) (hcheck : i.check = none) : exec i s = k := by
  rw [h, conditional_pass hc, hcheck, guarded_none]

section
variable {i : Instr} {c : Cond} {s : State} {rn rd : Reg} {x : Address}

/-- A form of a single load that completes (R350). -/
theorem loads_of_exec {k : LoadKind} {priv : Bool} (h : exec i s = conditional c s (guarded i.check (loadSingle k priv rn rd x s)))
    (hc : s.cpsr.passes c = true) (hcheck : i.check = none) (hrd : rd ≠ 15) (hx : x.Spares rn rd)
    (hready : s.LoadReady k.size priv x.addr) : Loads i s rn rd x (k.extend x.addr (s.valueAt k.size x.addr)) := by
  rw [Loads, exec_of_check h hc hcheck]
  exact loadSingle_gives hrd hx hready

/-- A form of a single store that completes (R350). -/
theorem stores_of_exec {size : Nat} {priv : Bool} {v : Word}
    (h : exec i s = conditional c s (guarded i.check (storeSingle size priv rn x v s)))
    (hc : s.cpsr.passes c = true) (hcheck : i.check = none) (hx : x.FitsBase rn) (hready : s.StoreReady size priv x.addr) :
    Stores i s rn x size v := by
  rw [Stores, exec_of_check h hc hcheck]
  exact storeSingle_gives hx hready

end

section
variable {noPc p u w : Bool} {rn rd rm : Reg} {s : State}

theorem mode2Imm_spares {off : BitVec 12} (h : mode2ImmCheck noPc p w rn rd = none) : (s.mode2Imm p u w rn off).Spares rn rd :=
  addressing_spares h (by simp) (by simp)

theorem mode2Reg_spares {sa : BitVec 5} {sh : Shift} (h : mode2RegCheck noPc p w rn rd rm = none) :
    (s.mode2Reg p u w rn sa sh rm).Spares rn rd := addressing_spares h (by simp) (by simp)

theorem mode3Imm_spares {iH iL : BitVec 4} (h : mode3ImmCheck p w rn rd = none) : (s.mode3Imm p u w rn iH iL).Spares rn rd :=
  addressing_spares h (by simp) (by simp)

theorem mode3Reg_spares {z : BitVec 4} (h : mode3RegCheck p w rn rd z rm = none) : (s.mode3Reg p u w rn rm).Spares rn rd :=
  addressing_spares h (by simp) (by simp)

/-- Where r15 may not be transferred, a check that finds nothing says that it is not (R182, R356). -/
theorem mode2Imm_rd (h : mode2ImmCheck true p w rn rd = none) : rd ≠ 15 := by
  simpa using firstOf_none h (true && rd == 15, .pcOperand) (by simp)

theorem mode2Reg_rd (h : mode2RegCheck true p w rn rd rm = none) : rd ≠ 15 := by
  have hpc := firstOf_none h (true && rd == 15 || rm == 15, .pcOperand) (by simp)
  rw [Bool.true_and, Bool.or_eq_false_iff, beq_eq_false_iff_ne] at hpc
  exact hpc.1

theorem mode3Imm_rd (h : mode3ImmCheck p w rn rd = none) : rd ≠ 15 := by
  simpa using firstOf_none h (rd == 15, .pcOperand) (by simp)

theorem mode3Reg_rd {z : BitVec 4} (h : mode3RegCheck p w rn rd z rm = none) : rd ≠ 15 := by
  have hpc := firstOf_none h (rd == 15 || rm == 15, .pcOperand) (by simp)
  rw [Bool.or_eq_false_iff, beq_eq_false_iff_ne] at hpc
  exact hpc.1

end

/-- Settles O29: every form is a single load at its address; the values are those of the extensions. -/
theorem singleLoadsBringMemory : Obligations.SingleLoadsBringMemory := by
  unfold Obligations.SingleLoadsBringMemory
  intro c p u w rn rd rm off sa sh iH iL s hc hrd loads a b d e refuses
  have half {i : Instr} {k : LoadKind} {x : Address}
      (h : exec i s = conditional c s (guarded i.check (loadSingle k s.priv rn rd x s))) (hk : k.size = 2) : refuses i x := by
    intro hcheck hA ha
    rw [exec_of_check h hc hcheck]
    exact loadSingle_half_refused hk hA ha
  refine ⟨half rfl rfl, half rfl rfl, half rfl rfl, half rfl rfl, fun h hr => ?_, fun h hr => ?_, fun h hr => ?_, fun h hr => ?_,
    fun h hr => ?_, fun h hr => ?_, fun h hr => ?_, fun h hr => ?_, fun h hr => ?_, fun h hr => ?_⟩
  · exact loads_of_exec (k := .word) rfl hc h hrd (mode2Imm_spares h) hr
  · exact loads_of_exec (k := .word) rfl hc h hrd (mode2Reg_spares h) hr
  · exact byte_extend_eq s a.addr ▸ loads_of_exec (k := .byte) rfl hc h hrd (mode2Imm_spares h) hr
  · exact byte_extend_eq s b.addr ▸ loads_of_exec (k := .byte) rfl hc h hrd (mode2Reg_spares h) hr
  · exact half_extend_eq s d.addr ▸ loads_of_exec (k := .half) rfl hc h hrd (mode3Imm_spares h) hr
  · exact half_extend_eq s e.addr ▸ loads_of_exec (k := .half) rfl hc h hrd (mode3Reg_spares h) hr
  · exact loads_of_exec (k := .signedByte) rfl hc h hrd (mode3Imm_spares h) hr
  · exact loads_of_exec (k := .signedByte) rfl hc h hrd (mode3Reg_spares h) hr
  · exact loads_of_exec (k := .signedHalf) rfl hc h hrd (mode3Imm_spares h) hr
  · exact loads_of_exec (k := .signedHalf) rfl hc h hrd (mode3Reg_spares h) hr

/-- The value that STR takes from a register: for r15 the pc plus 8 or 12 (R355, R356). -/
theorem stored_eq (s : State) (r : Reg) : s.stored r =
    if r = 15 then s.pc + (if s.params.storedPc12 then 12 else 8) else s.getPhys (s.phys r) := by
  unfold State.stored
  split
  · rfl
  · rw [State.reg, if_neg ‹_›, State.phys]

/-- A store of a register other than r15 takes the register. -/
theorem stored_of_ne {s : State} {r : Reg} (h : r ≠ 15) : s.stored r = s.reg r := if_neg h

/-- Settles O30: every form is a single store at its address; bytes and halfwords of r15 are UNPREDICTABLE. -/
theorem singleStoresWriteTheirBytes : Obligations.SingleStoresWriteTheirBytes := by
  unfold Obligations.SingleStoresWriteTheirBytes
  intro c p u w rn rd rm off sa sh iH iL s hc stores v a b d e refuses
  have half {i : Instr} {x : Address} {v : Word}
      (h : exec i s = conditional c s (guarded i.check (storeSingle 2 s.priv rn x v s))) : refuses i x := by
    intro hcheck hA ha
    rw [exec_of_check h hc hcheck]
    exact storeSingle_half_refused hA ha
  have hv : s.stored rd = v := stored_eq s rd
  have hreg (h : rd ≠ 15) : s.reg rd = v := (stored_of_ne h).symm.trans hv
  refine ⟨half rfl, half rfl, fun h hr => ?_, fun h hr => ?_, fun h hr => ?_, fun h hr => ?_, fun h hr => ?_, fun h hr => ?_⟩
  · exact hv ▸ stores_of_exec rfl hc h (mode2Imm_spares h).fitsBase hr
  · exact hv ▸ stores_of_exec rfl hc h (mode2Reg_spares h).fitsBase hr
  · exact hreg (mode2Imm_rd h) ▸ stores_of_exec rfl hc h (mode2Imm_spares h).fitsBase hr
  · exact hreg (mode2Reg_rd h) ▸ stores_of_exec rfl hc h (mode2Reg_spares h).fitsBase hr
  · exact hreg (mode3Imm_rd h) ▸ stores_of_exec rfl hc h (mode3Imm_spares h).fitsBase hr
  · exact hreg (mode3Reg_rd h) ▸ stores_of_exec rfl hc h (mode3Reg_spares h).fitsBase hr

/-! ### Thumb (R480 to R497) -/

/-- The address of a Thumb form, which does not write back (R480). -/
def plainAddress (a : Word) : Address := { addr := a, wb := none }

theorem plainAddress_spares (a : Word) (rn rd : Reg) : (plainAddress a).Spares rn rd := nofun

theorem misaligned_of_zero {size : Nat} {a : Word} (h : a.toNat % size = 0) : misaligned size a = false := by
  rw [misaligned, h]
  rfl

/-- Thumb refuses an address only of a word, beyond what every single load and store refuses (R480, U1). -/
theorem thumbRefused_of_ne {s : State} {size : Nat} (h : size ≠ 4) (a : Word) : s.thumbRefused size a = false := by
  rw [State.thumbRefused, beq_false_of_ne h, Bool.and_false, Bool.false_and]

/-- An aligned access is not refused (R480). -/
theorem thumbRefused_of_aligned {s : State} {size : Nat} {a : Word} (h : a.toNat % size = 0) : s.thumbRefused size a = false := by
  by_cases hs : size = 4
  · subst hs
    rw [State.thumbRefused, misaligned_of_zero h, Bool.and_false]
  · exact thumbRefused_of_ne hs a

/-- A misaligned word is refused with A = 0 (R480, U1). -/
theorem thumbRefused_of_misaligned {s : State} {a : Word} (hA : s.ctl.a = false) (ha : a.toNat % 4 ≠ 0) :
    s.thumbRefused 4 a = true := by
  simp [State.thumbRefused, misaligned, hA, ha]

section
variable {i : Instr} {rd : LReg} {a : Word} {s : State}

/-- A low register is not r15. -/
theorem low_ne_pc (r : LReg) : r.reg ≠ 15 := by
  revert r
  decide

/-- What a form of a Thumb load does: it loads, and is refused where the address is misaligned and A = 0. -/
theorem thumbLoad_clauses {k : LoadKind} {v : Word} (h : exec i s = thumbLoad k rd a s)
    (hv : a.toNat % k.size = 0 → k.extend a (s.valueAt k.size a) = v) :
    (s.LoadReady k.size s.priv a → a.toNat % k.size = 0 → Loads i s 0 rd.reg (plainAddress a) v) ∧
    (s.ctl.a = false → k.size = 4 → a.toNat % 4 ≠ 0 → exec i s = .refused (.unpredictable .misalignedThumb)) ∧
    (s.ctl.a = false → k.size = 2 → a.toNat % 2 ≠ 0 → exec i s = .refused (.unpredictable .misalignedHalf)) := by
  refine ⟨fun hready ha => ?_, fun hA hk ha => ?_, fun hA hk ha => ?_⟩
  · rw [Loads, h, thumbLoad, thumbRefused_of_aligned ha, ← hv ha]
    exact loadSingle_gives (low_ne_pc rd) (plainAddress_spares a 0 rd.reg) hready
  · rw [h, thumbLoad, hk, thumbRefused_of_misaligned hA ha]
    rfl
  · have hodd : a.toNat % 2 = 1 := by omega
    rw [h, thumbLoad, thumbRefused_of_ne (by omega)]
    exact loadSingle_half_refused (rn := 0) (x := plainAddress a) hk hA hodd

/-- What a form of a Thumb store does: it stores, and is refused where the address is misaligned and A = 0. -/
theorem thumbStore_clauses {size : Nat} (h : exec i s = thumbStore size rd a s) :
    (s.StoreReady size s.priv a → a.toNat % size = 0 → Stores i s 0 (plainAddress a) size (s.reg rd.reg)) ∧
    (s.ctl.a = false → size = 4 → a.toNat % 4 ≠ 0 → exec i s = .refused (.unpredictable .misalignedThumb)) ∧
    (s.ctl.a = false → size = 2 → a.toNat % 2 ≠ 0 → exec i s = .refused (.unpredictable .misalignedHalf)) := by
  refine ⟨fun hready ha => ?_, fun hA hs ha => ?_, fun hA hs ha => ?_⟩
  · rw [Stores, h, thumbStore, thumbRefused_of_aligned ha]
    exact storeSingle_gives (plainAddress_spares a 0 rd.reg).fitsBase hready
  · rw [h, thumbStore, hs, thumbRefused_of_misaligned hA ha]
    rfl
  · have hodd : a.toNat % 2 = 1 := by omega
    subst hs
    rw [h, thumbStore, thumbRefused_of_ne (by decide)]
    exact storeSingle_half_refused (rn := 0) (x := plainAddress a) hA hodd

end

/-- A scaled immediate is a product (R203). -/
theorem scaled_eq {n : Nat} (k : Nat) (imm : BitVec n) : scaled k imm = imm.setWidth 32 * BitVec.ofNat 32 (2 ^ k) := by
  rw [scaled, BitVec.shiftLeft_eq_mul_twoPow]
  congr 1
  exact BitVec.eq_of_toNat_eq (by simp)

/-- Settles O48: every form is a Thumb load or store at its address. -/
theorem thumbLoadsAndStores : Obligations.ThumbLoadsAndStores := by
  unfold Obligations.ThumbLoadsAndStores
  intro i5 imm rm rn rd s o loads stores b x sp pc j
  have himm (k : Nat) : b + scaled k i5 = j (BitVec.ofNat 32 (2 ^ k)) := by rw [scaled_eq]
  have hsp : s.reg 13 + scaled 2 imm = sp := by rw [scaled_eq]; rfl
  have hpc : s.pcAligned + scaled 2 imm = pc := by rw [scaled_eq]; rfl
  have word {i : Instr} {a : Word} (h : exec i s = thumbLoad .word rd a s) : loads i a 4 (s.valueAt 4 a) :=
    thumbLoad_clauses h fun ha => word_extend_aligned ha _
  have byte {i : Instr} {a : Word} (h : exec i s = thumbLoad .byte rd a s) : loads i a 1 (s.loadByte false a) :=
    thumbLoad_clauses h fun _ => byte_extend_eq s a
  have half {i : Instr} {a : Word} (h : exec i s = thumbLoad .half rd a s) : loads i a 2 (s.loadHalf false a) :=
    thumbLoad_clauses h fun _ => half_extend_eq s a
  have store {i : Instr} {a : Word} {size : Nat} (h : exec i s = thumbStore size rd a s) : stores i a size :=
    thumbStore_clauses h
  exact ⟨himm 2 ▸ word rfl, word rfl, hpc ▸ word rfl, hsp ▸ word rfl, himm 0 ▸ byte rfl, byte rfl, himm 1 ▸ half rfl, half rfl,
    thumbLoad_clauses (k := .signedByte) rfl fun _ => rfl, thumbLoad_clauses (k := .signedHalf) rfl fun _ => rfl,
    himm 2 ▸ store rfl, store rfl, hsp ▸ store rfl, himm 0 ▸ store rfl, store rfl, himm 1 ▸ store rfl, store rfl⟩

end Sys2Proof.Machine

/-! PROOF. The fetch at the pc (R104, R107, R112), and an instruction fetched with a mark (R145, R147, R544, R603, R606): the
statements O6 and O8. -/

namespace Sys2Proof.Machine

/-! ### An instruction inside its word (R104, R107) -/

/-- The lane of an aligned word is its address. -/
theorem lane_word {o : Nat} (big : Bool) (h : o % 4 = 0) : lane big 4 o = o / 4 * 4 := by
  rw [lane]
  split <;> omega

/-- The lane of an aligned halfword is that half of the word which the byte order places there. -/
theorem lane_half {a : Word} {o : Nat} (big : Bool) (h : o % 4 = a.toNat % 4) (ha : a.toNat % 2 = 0) :
    lane big 2 o = o / 4 * 4 + if a.getLsbD 1 != big then 2 else 0 := by
  have hbit : a.getLsbD 1 = decide (a.toNat / 2 % 2 = 1) := Nat.testBit_eq_decide_div_mod_eq
  have hlow : o % 4 = 0 ∧ a.getLsbD 1 = false ∨ o % 4 = 2 ∧ a.getLsbD 1 = true := by
    rw [hbit, decide_eq_false_iff_not, decide_eq_true_iff]
    omega
  rcases hlow with ⟨ho, hb⟩ | ⟨ho, hb⟩ <;> cases big <;> simp only [hb, lane] <;> simp <;> omega

/-- A half of a word is the word of two of its bytes. -/
theorem halfAt_ofBytes (f : Nat → Byte) (k : Nat) (top : Bool) :
    halfAt (ofBytes ((span k 4).map f)) top = (ofBytes ((span (k + if top then 2 else 0) 2).map f)).setWidth 16 := by
  refine BitVec.eq_of_getLsbD_eq fun i hi => ?_
  cases top <;> interval_cases i <;> simp [halfAt, span, ofBytes]

section
variable {s : State} {o : Nat} (ho : o % 4 = s.pc.toNat % 4) (ha : s.PcAligned)
include ho ha

/-- The instruction at the pc inside the word that holds it is that of its own bytes. -/
theorem code_instrBits (f : Nat → Byte) :
    s.code (instrBits s.cpsr.t s.ctl.b s.pc (ofBytes ((span (o / 4 * 4) 4).map f))) =
      let w := ofBytes ((span (lane s.ctl.b s.instrLen o) s.instrLen).map f)
      if s.cpsr.t then .thumb (w.setWidth 16) else .arm w := by
  unfold State.PcAligned State.instrLen at *
  cases ht : s.cpsr.t with
  | false =>
    rw [ht] at ha
    have hz : o % 4 = 0 := ho.trans ha
    simp [State.code, instrBits, ht, lane_word _ hz]
  | true =>
    rw [ht] at ha
    simp [State.code, instrBits, ht, lane_half s.ctl.b ho ha, halfAt_ofBytes]

/-- A word of the pipeline holds the instruction at the pc where that has been written. -/
theorem written_itcmWord {wa : Word} (hwa : s.tcmOffset .itcm wa.toNat = o / 4 * 4)
    (h : ∀ k ∈ span (lane s.ctl.b s.instrLen o) s.instrLen, s.itcmUnwritten k = false) :
    (s.itcmWord wa).written s.cpsr.t s.ctl.b s.pc = true := by
  unfold State.PcAligned State.instrLen at *
  simp only [PipeWord.written, State.itcmWord, hwa]
  cases ht : s.cpsr.t with
  | false =>
    rw [ht] at ha h
    have hz : o % 4 = 0 := ho.trans ha
    simp only [Bool.false_eq_true, if_false, lane_word _ hz, mem_span] at h
    simp only [Bool.false_eq_true, if_false, Bool.and_eq_true, Bool.not_eq_true', List.any_eq_false, mem_span,
      Bool.not_eq_true]
    exact ⟨fun k hk => h k (by omega), fun k hk => h k (by omega)⟩
  | true =>
    rw [ht] at ha h
    simp only [if_true, lane_half s.ctl.b ho ha] at h
    simp only [if_true]
    split <;>
    · rw [Bool.not_eq_true', List.any_eq_false]
      simp_all

end

/-! ### The ITCM (R111, R128, R130) -/

/-- The size of a TCM that exists is a multiple of 8 (R53). -/
theorem tcmSize_eq_mul {s : State} {m : Tcm} (h : s.tcmSize m ≠ 0) : ∃ c, s.tcmSize m = 8 * c := by
  cases m <;>
  · simp only [State.tcmSize, tcmBytes] at h ⊢
    split at h
    · exact absurd rfl h
    · rw [if_neg ‹_›, Nat.pow_add]
      exact ⟨_, by rw [show 2 ^ 9 = 8 * 64 from rfl, Nat.mul_assoc]⟩

/-- Offsets in a TCM keep the place inside the word (R111). -/
theorem tcmOffset_aligned {s : State} {m : Tcm} (h : s.tcmSize m ≠ 0) (a : Nat) :
    s.tcmOffset m a % 4 = a % 4 ∧ s.tcmOffset m (a / 4 * 4) = s.tcmOffset m a / 4 * 4 := by
  obtain ⟨c, hc⟩ := tcmSize_eq_mul h
  simp only [State.tcmOffset, hc, Nat.mod_mul (a := 8)]
  have hw : a / 4 * 4 % 0x400000 / 8 = a % 0x400000 / 8 := by omega
  rw [hw]
  omega

/-- The second word of a doubleword follows the first in a TCM (R111). -/
theorem tcmOffset_next {s : State} {m : Tcm} (h : s.tcmSize m ≠ 0) {a : Nat} (ha : a % 8 = 0) :
    s.tcmOffset m (a + 4) = s.tcmOffset m a + 4 := by
  obtain ⟨c, hc⟩ := tcmSize_eq_mul h
  simp only [State.tcmOffset, hc, Nat.mod_mul (a := 8)]
  have hw : (a + 4) % 0x400000 / 8 = a % 0x400000 / 8 := by omega
  rw [hw]
  omega

/-- A byte of the ITCM that was written stays written by a write to its RAM, which writes its own bytes. -/
theorem isSome_putRam {s : State} {e : TcmEntry} {o : Nat} (h : (e.byte? o).isSome ∨ (s.itcm.get? o).isSome) :
    ((s.putRam .itcm e.off e.size e.data).itcm.get? o).isSome := by
  have hput : ∃ bs : List Byte, bs.length = e.size ∧ (s.putRam .itcm e.off e.size e.data).itcm = s.itcm.setBytes e.off bs := by
    rcases s.putRam_cases .itcm e.off e.size e.data with ⟨-, h⟩ | ⟨-, bs, hbs, h, -⟩
    · exact ⟨_, wordBytes_length .., by rw [h]; rfl⟩
    · exact ⟨bs, hbs, by rw [h]; rfl⟩
  obtain ⟨bs, hbs, hput⟩ := hput
  rw [hput, Memory.get?_setBytes]
  split
  · have hlt : o - e.off < bs.length := by omega
    rw [List.getElem?_eq_getElem hlt]
    rfl
  · rcases h with h | h
    · rw [TcmEntry.byte?, if_neg (by omega)] at h
      cases h
    · exact h

/-- Entries written into the ITCM change its RAM alone, and what they hold is written. -/
theorem foldl_putRam_itcm (l : List TcmEntry) : ∀ s : State,
    let t := l.foldl (fun s e => s.putRam .itcm e.off e.size e.data) s
    t = { s with itcm := t.itcm, free := t.free } ∧
      ∀ o, (bufferByte l o).isSome ∨ (s.itcm.get? o).isSome → (t.itcm.get? o).isSome := by
  induction l with
  | nil => exact fun s => ⟨rfl, fun o h => h.resolve_left Bool.false_ne_true⟩
  | cons e r ih =>
    intro s
    obtain ⟨hframe, hsome⟩ := ih (s.putRam .itcm e.off e.size e.data)
    have hput : s.putRam .itcm e.off e.size e.data = { s with
        itcm := (s.putRam .itcm e.off e.size e.data).itcm, free := (s.putRam .itcm e.off e.size e.data).free } := by
      rcases s.putRam_cases .itcm e.off e.size e.data with ⟨-, h⟩ | ⟨-, bs, -, h, -⟩ <;> rw [h] <;> rfl
    refine ⟨?_, fun o h => hsome o ?_⟩
    · rw [List.foldl_cons, hframe, hput]
    · cases hr : bufferByte r o with
      | some b => exact .inl rfl
      | none =>
        refine .inr (isSome_putRam ?_)
        rwa [bufferByte, hr] at h

/-- The drain that a fetch from the ITCM waits for changes the ITCM alone, and leaves written what is written (R114, R130). -/
theorem orderDrain_itcm (s : State) :
    s.orderDrain .itcm = { s with
      itcm := (s.orderDrain .itcm).itcm, itcmWB := (s.orderDrain .itcm).itcmWB, free := (s.orderDrain .itcm).free } ∧
      ∀ o, s.itcmUnwritten o = false → (s.orderDrain .itcm).itcmUnwritten o = false := by
  rw [State.orderDrain]
  split
  · obtain ⟨hframe, hsome⟩ := foldl_putRam_itcm s.itcmWB (s.setTcmWB .itcm [])
    have hdrain : s.drainTcmAll .itcm = _ := hframe
    refine ⟨by rw [hdrain]; rfl, fun o h => ?_⟩
    have hram : ((s.drainTcmAll .itcm).itcm.get? o).isSome := by
      refine hsome o ?_
      rw [State.itcmUnwritten, Bool.and_eq_false_iff, Option.isNone_eq_false_iff, Option.isNone_eq_false_iff] at h
      exact h
    rw [State.itcmUnwritten, Option.isNone_eq_false_iff.mpr hram, Bool.and_false]
  · exact ⟨rfl, fun _ => id⟩

/-! ### The fetch -/

/-- A fetch that brings the instruction memory holds at the pc, and changes only where fetched and buffered data stand. -/
def BringsCode (r : Acc Fetched) (s : State) : Prop :=
  ∃ f s1, r = .ok f s1 ∧ s1.code f.bits = s.codeAtPc ∧ f.err = false ∧ MemoryStays s s1 ∧
    s1 = { s with nonseq := false, ahb := s1.ahb, ahbWB := s1.ahbWB, itcm := s1.itcm, itcmWB := s1.itcmWB,
                  ipb := s1.ipb, ipbNext := s1.ipbNext, free := s1.free }

section
variable {s : State} (ha : s.PcAligned) (hc : s.Clean)
include ha hc

/-- A fetch from the ITCM: the drain changes nothing that loads see, and the bytes of the instruction stay written. -/
theorem fetchItcm_bringsCode (hi : s.ctl.i = true) (hlow : s.pc.toNat < 0x400000) (hsize : s.tcmSize .itcm ≠ 0)
    (herr : s.params.tcmErrors = false)
    (hw : ∀ k ∈ span (lane s.ctl.b s.instrLen (s.tcmOffset .itcm s.pc.toNat)) s.instrLen, s.itcmUnwritten k = false) :
    BringsCode s.fetchItcm s := by
  obtain ⟨-, hseen⟩ := drained_orderDrain (hc.2 .itcm)
  obtain ⟨hframe, hkept⟩ := orderDrain_itcm s
  obtain ⟨hmod, hword⟩ := tcmOffset_aligned hsize s.pc.toNat
  obtain ⟨m, wb, n, hu⟩ : ∃ m wb n, s.orderDrain .itcm = { s with itcm := m, itcmWB := wb, free := n } := ⟨_, _, _, hframe⟩
  rw [hu] at hseen hkept
  let u : State := { s with itcm := m, itcmWB := wb, free := n, nonseq := false }
  have hwa : u.tcmOffset .itcm (clearLow 2 s.pc).toNat = s.tcmOffset .itcm s.pc.toNat / 4 * 4 := by
    rw [clearLow_two_toNat]
    exact hword
  have hwritten : (u.itcmWord (clearLow 2 s.pc)).written s.cpsr.t s.ctl.b s.pc = true :=
    written_itcmWord (s := u) hmod ha hwa fun k hk => hkept k (hw k hk)
  have hbytes : u.tcmByte .itcm = fun k => s.seen (.tcm .itcm, k) := funext fun k => hseen (.tcm .itcm, k)
  have hfetch : s.fetchItcm = u.takeWord (u.itcmWord (clearLow 2 s.pc)) := by
    rw [State.fetchItcm, if_neg hsize, hu]
  rw [hfetch, State.takeWord, if_pos hwritten]
  refine ⟨_, u, rfl, ?code, ?err, ⟨nofun, fun q _ => hseen q⟩, rfl⟩
  case code =>
    show s.code (instrBits _ _ _ (ofBytes ((span (u.tcmOffset .itcm _) 4).map (u.tcmByte .itcm)))) = _
    rw [hwa, hbytes, code_instrBits hmod ha, State.codeAtPc, hi, decide_eq_true hlow, Bool.and_self, if_pos rfl]
  case err =>
    show (s.params.tcmErrors && _ && _) = false
    rw [herr]
    rfl

/-- A fetch from the AHB with nothing in the prefetch buffer: the drain changes nothing that loads see. -/
theorem fetchAhb_bringsCode (hipb : s.ipb = []) (hn : ¬ (s.ctl.i = true ∧ s.pc.toNat < 0x400000))
    (herr : s.ahbError .fetch (s.pc.toNat / 4 * 4) 4 s.priv = false) : BringsCode (s.fetchAhb s.pc) s := by
  have hr := reads_drainAhbAll hc
  have hframe : s.drainAhbAll = _ := ahbFrame_drainAhbAll s
  have hbytes : s.drainAhbAll.ahbByte = fun k => s.seen (.ahb, k) := drainAhbAll_ahbByte hc
  have hroute : (s.ctl.i && decide (s.pc.toNat < 0x400000)) = false := by
    rwa [Bool.and_eq_false_iff, decide_eq_false_iff_not, ← Bool.not_eq_true, ← not_and_or]
  rw [State.fetchAhb, hipb]
  refine ⟨_, _, rfl, ?code, ?err, ⟨nofun, fun q _ => hr.seen q⟩, ?frame⟩
  case code =>
    show State.code _ (instrBits _ _ _ (ofBytes ((span (clearLow 2 s.pc).toNat 4).map s.drainAhbAll.ahbByte))) = _
    rw [clearLow_two_toNat, hbytes, State.codeAtPc, hroute]
    refine Eq.trans ?_ (code_instrBits rfl ha _)
    rw [hframe]
    rfl
  case err =>
    show s.drainAhbAll.ahbError .fetch (clearLow 2 s.pc).toNat 4 s.priv = false
    rwa [hr.frame.ahbError, clearLow_two_toNat]
  case frame =>
    show State.mk .. = _
    rw [hframe]

end

/-- Settles O6, by where the fetch goes. -/
theorem fetchReadsTheBytesAtThePc : Obligations.FetchReadsTheBytesAtThePc := by
  unfold Obligations.FetchReadsTheBytesAtThePc
  intro s hpipe hipb ha hc hport
  have hnow : s.coreFetch = s.fetchNow := by rw [State.coreFetch, hpipe]; rfl
  rw [hnow, State.fetchNow, State.fetchesItcm]
  split at hport
  next h =>
    obtain ⟨hsize, herr, hw⟩ := hport
    rw [h.1, decide_eq_true h.2, Bool.and_self, if_pos rfl]
    exact fetchItcm_bringsCode ha hc h.1 h.2 hsize herr hw
  next h =>
    rw [if_neg (by simpa using h)]
    exact fetchAhb_bringsCode ha hc hipb h hport

end Sys2Proof.Machine

namespace Sys2Proof.Machine

/-! ### An instruction fetched with a mark -/

/-- Nothing standing before it, a step runs what the fetch brings, marked or not (R566 step 8). -/
theorem step_of_fetch {s s1 : State} {f : Fetched} (hs : s.Undisturbed) (hf : s.coreFetch = .ok f s1) (hr : s.staleRoute = false) :
    step s = if f.err then .next (s1.dropMatch.takeException .prefetchAbort)
      else if s1.breakHit f then takeBreakpoint f s1.dropMatch else runCode exec f.bits s1 := by
  obtain ⟨hforb, hag, hun, hhalt, hreq, hfifo, hetm, hstand, htop, hfiq, hirq, hlatch⟩ := hs
  calc step s = coreTurnWith exec s := step_coreTurn hforb hag
    _ = boundary exec s := coreTurnWith_eq hun hhalt hreq hfifo hetm hstand
    _ = runInstruction exec s := by
      rw [boundary_eq htop (by rw [hlatch, Bool.false_and]) hfiq hirq, hlatch, if_neg Bool.false_ne_true]
    _ = _ := by
      simp only [runInstruction, State.nextFetch, hr, hf, Acc.finish, Bool.false_eq_true, if_false]

/-- The mark DbgAbt is no part of what an exception entry reads or writes. -/
theorem setDbgAbt_takeException (s : State) (e : Exc) : (s.takeException e).setDbgAbt = s.setDbgAbt.takeException e := by
  rw [takeException_eq, takeException_eq]
  cases e <;> rfl

/-- Settles O8: an error before a breakpoint, a breakpoint by the debug mode, an external mark before the abort. -/
theorem markedInstructionIsNotExecuted : Obligations.MarkedInstructionIsNotExecuted := by
  unfold Obligations.MarkedInstructionIsNotExecuted
  intro s s1 f hs hf hr s2
  obtain ⟨hframe, -⟩ := coreFetch_framed hf
  have hcpsr : s1.cpsr = s.cpsr := by rw [hframe]
  have hdbg : s1.dbg = s.dbg := by rw [hframe]
  have hdcc : s1.dcc = s.dcc := by rw [hframe]
  have hparams : s1.params = s.params := by rw [hframe]
  have hmon : s1.dropMatch.dbg.monitor = s.dbg.monitor := by rw [← hdbg]; rfl
  rw [step_of_fetch hs hf hr]
  refine ⟨fun he => ?error, fun he hgen hfull hmark => ?mark⟩
  case error =>
    rw [if_pos he]
    exact enters_takeException _ _
  case mark =>
    have hhit : s1.breakHit f = true := by
      rw [State.breakHit, hparams, hdbg, hgen, hfull, Bool.and_self, Bool.true_and, Bool.or_eq_true]
      exact hmark
    rw [he, if_neg Bool.false_ne_true, if_pos hhit, takeBreakpoint, hmon]
    refine ⟨fun hm => ⟨Config.freeWord s1.free, ?halt⟩, fun hm hb => ?monitor, fun hm hb => ?external⟩
    case halt =>
      rw [hm, ← hcpsr]
      rfl
    case monitor =>
      rw [hm, hb, setDbgAbt_takeException, ← hdcc]
      exact enters_takeException _ _
    case external =>
      rw [hm, hb]
      rfl

end Sys2Proof.Machine

/-! PROOF. Transfers of several words that complete (R354, R370, R371, R385, R388, R390, R501): the words that a load brings, the
registers it fills, the pc it branches to; the statements O33 and O36. -/

namespace Sys2Proof.Machine

/-! ### The words of a transfer -/

/-- The addresses of a transfer from its second word up. -/
theorem word_succ (a : Word) (j : Nat) : a + 4 + BitVec.ofNat 32 (4 * j) = a + BitVec.ofNat 32 (4 * (j + 1)) := by
  rw [Nat.mul_add, Nat.add_comm (4 * j), BitVec.ofNat_add, BitVec.add_assoc]
  rfl

theorem word_zero (a : Word) : a + BitVec.ofNat 32 (4 * 0) = a := BitVec.add_zero a

/-- The words that memory holds from an address up. -/
def State.wordsAt (s : State) (n : Nat) (a : Word) : List Word :=
  (List.range n).map fun j => s.valueAt 4 (a + BitVec.ofNat 32 (4 * j))

theorem wordsAt_succ (s : State) (n : Nat) (a : Word) : s.wordsAt (n + 1) a = s.valueAt 4 a :: s.wordsAt n (a + 4) := by
  simp only [State.wordsAt, List.range_succ_eq_map, List.map_cons, List.map_map, word_zero, Function.comp_def, word_succ]

/-- The last of the words. -/
theorem wordsAt_getLastD (s : State) {n : Nat} (h : n ≠ 0) (a : Word) :
    (s.wordsAt n a).getLastD 0 = s.valueAt 4 (a + BitVec.ofNat 32 (4 * (n - 1))) := by
  obtain ⟨m, rfl⟩ := Nat.exists_eq_succ_of_ne_zero h
  simp [State.wordsAt, List.range_succ]

theorem Reads.wordsAt {s t : State} (h : Reads s t) (n : Nat) (a : Word) : t.wordsAt n a = s.wordsAt n a := by
  simp only [State.wordsAt, h.valueAt]

/-- Words that all complete, no other agent acting between them, bring what memory holds (R385, R141). -/
theorem loadWords_completes {priv : Bool} (n : Nat) : ∀ (a : Word) (s : State), s.inside = [] → s.Clean →
    (∀ j < n, s.Answers .read 4 priv (a + BitVec.ofNat 32 (4 * j))) →
    ∃ t, loadWords priv n a s = .ok (s.wordsAt n a) t ∧ Reads s t := by
  induction n with
  | zero => exact fun a s _ _ _ => ⟨s, rfl, .refl s⟩
  | succ n ih =>
    intro a s hin hc ha
    have hfirst : s.Answers .read 4 priv a := word_zero a ▸ ha 0 (by omega)
    obtain ⟨t, hload, hr⟩ := loadData_completes (swap := false) hc hfirst
    obtain ⟨u, hrest, hu⟩ := ih (a + 4) t (by rw [hr.frame.inside, hin]) (hr.clean hc) fun j hj =>
      hr.frame.answers (word_succ a j ▸ ha (j + 1) (by omega))
    refine ⟨u, ?_, hr.trans hu⟩
    rw [hr.wordsAt] at hrest
    simp only [loadWords, pause_none _ _ hin, hload, hrest, Acc.bind, wordsAt_succ]

/-! ### The registers of a transfer -/

/-- Words in the registers they are loaded into, r15 passed over. -/
def placed (place : Reg → PhysReg) (rs : List Reg) (vs : List Word) : List (PhysReg × Word) :=
  ((rs.zip vs).filter fun x => x.1 != 15).map fun x => (place x.1, x.2)

theorem mem_placed_fst {place : Reg → PhysReg} {rs : List Reg} {vs : List Word} {p : PhysReg}
    (h : p ∈ (placed place rs vs).map Prod.fst) : ∃ r ∈ rs, r ≠ 15 ∧ p = place r := by
  simp only [placed, List.map_map, List.mem_map, List.mem_filter, Function.comp_apply, bne_iff_ne] at h
  obtain ⟨⟨r, v⟩, ⟨hmem, hne⟩, rfl⟩ := h
  exact ⟨r, (List.of_mem_zip hmem).1, hne, rfl⟩

theorem placed_cons_pc (place : Reg → PhysReg) (rs : List Reg) (v : Word) (vs : List Word) :
    placed place (15 :: rs) (v :: vs) = placed place rs vs := rfl

theorem placed_cons {place : Reg → PhysReg} {r : Reg} (h : r ≠ 15) (rs : List Reg) (v : Word) (vs : List Word) :
    placed place (r :: rs) (v :: vs) = (place r, v) :: placed place rs vs := by
  rw [placed, List.zip_cons_cons, List.filter_cons_of_pos (p := fun x : Reg × Word => x.1 != 15) (bne_iff_ne.mpr h)]
  rfl

/-- The words of a register list are those from the start of the transfer up. -/
theorem loaded_eq_placed (s : State) (place : Reg → PhysReg) (list : BitVec 16) (start : Word) :
    s.loaded place list start = placed place (listed list) (s.wordsAt (listed list).length start) := by
  have hzip : (listed list).zip (s.wordsAt (listed list).length start) =
      (listed list).zipIdx.map fun x => (x.1, s.valueAt 4 (start + BitVec.ofNat 32 (4 * x.2))) := by
    rw [State.wordsAt, List.zipIdx_eq_zip_range', ← List.range_eq_range', List.zip_map_right]
    rfl
  rw [placed, hzip, List.filter_map, List.map_map]
  rfl

/-- Writes of loaded words into registers, each in a place of its own. -/
theorem Done.writeRegs {place : Reg → PhysReg} {ws : List Store} {s : State}
    (hplace : ∀ r q : Reg, r ≠ 15 → q ≠ 15 → place r = place q → r = q) (rs : List Reg) :
    ∀ (vs : List Word) (dst : List (PhysReg × Word)) (u : State), rs.Nodup →
      (∀ r ∈ rs, r ≠ 15 → place r ∉ dst.map Prod.fst) → Done dst ws s u →
      Done (dst ++ placed place rs vs) ws s (u.writeRegs place rs vs) := by
  induction rs with
  | nil => exact fun vs dst u _ _ h => (List.append_nil dst).symm ▸ h
  | cons r rs ih =>
    intro vs dst u hnd hdst h
    obtain ⟨hr, hrest⟩ := List.nodup_cons.mp hnd
    cases vs with
    | nil => exact (List.append_nil dst).symm ▸ h
    | cons v vs =>
      by_cases h15 : r = 15
      · subst h15
        rw [State.writeRegs, if_pos rfl, placed_cons_pc]
        exact ih vs dst u hrest (fun q hq => hdst q (List.mem_cons_of_mem _ hq)) h
      · rw [State.writeRegs, if_neg h15, placed_cons h15, List.append_cons]
        refine ih vs _ _ hrest (fun q hq hq15 => ?_) (h.setPhys v (hdst r (List.mem_cons_self ..) h15))
        rw [List.map_append, List.mem_append, not_or]
        refine ⟨hdst q (List.mem_cons_of_mem _ hq) hq15, fun hm => hr ?_⟩
        obtain rfl := hplace q r hq15 h15 (List.mem_singleton.mp hm)
        exact hq

theorem listed_nodup (l : BitVec 16) : (listed l).Nodup := List.Nodup.filter _ (by decide)

theorem mem_listed {l : BitVec 16} {r : Reg} : r ∈ listed l ↔ l.getLsbD r.toNat = true := by
  have hall : r ∈ allRegs := by
    revert r
    decide
  simp [listed, hall]

/-! ### LDRD and STRD (R370, R371) -/

section
variable {i : Instr} {p u w : Bool} {rn rd rm : Reg} {s : State} {x : Address}

/-- The first register of a pair is even and not r14, so that neither is r15 (R370). -/
theorem pair_ne_pc (h : oddPairCheck rd = false) : rd ≠ 15 ∧ rd + 1 ≠ 15 := by
  revert rd
  decide

/-- What the checks of LDRD find: a pair, and a written-back base that is none of it (R370). -/
theorem ldrdCheck_spares {l : List (Bool × Unpred)} {base offset : Word} (h : firstOf l = none)
    (hpair : (oddPairCheck rd, Unpred.oddPair) ∈ l) (hpc : ((!p || w) && rn == 15, Unpred.pcBase) ∈ l)
    (hrd : ((!p || w) && (rn == rd || rn == rd + 1), Unpred.baseIsDest) ∈ l) :
    oddPairCheck rd = false ∧ (addressing p u w base offset).Spares rn rd ∧
      (addressing p u w base offset).Spares rn (rd + 1) := by
  have hw {v : Word} (hv : (addressing p u w base offset).wb = some v) : (!p || w) = true := by
    by_contra hno
    simp [addressing, hno] at hv
  have h1 := firstOf_none h _ hpc
  have h2 := firstOf_none h _ hrd
  refine ⟨firstOf_none h _ hpair, fun v hv => ?_, fun v hv => ?_⟩ <;>
  · simp only [hw hv, Bool.true_and, Bool.or_eq_false_iff, beq_eq_false_iff_ne, ne_eq] at h1 h2
    obtain ⟨hne, hne1⟩ := h2
    exact ⟨h1, by assumption⟩

/-- LDRD that completes: the base, then the pair (R370). -/
theorem loadDouble_gives (hpair : oddPairCheck rd = false) (hx : x.Spares rn rd) (hx1 : x.Spares rn (rd + 1))
    (ha : x.addr.toNat % 8 = 0) (hc : s.Clean) (hall : s.AnswersAll .read 2 x.addr) :
    Gives (loadDouble rn rd x s) s s.nextAddr s.cpsr
      (s.back rn x ++ [(s.phys rd, s.valueAt 4 x.addr), (s.phys (rd + 1), s.valueAt 4 (x.addr + 4))]) [] := by
  obtain ⟨hin, hans⟩ := hall
  obtain ⟨t, hload, hr⟩ := loadWords_completes 2 x.addr s hin hc hans
  obtain ⟨h1, h2⟩ := pair_ne_pc hpair
  have hexec : loadDouble rn rd x s =
      .next ((t.backTo rn x.wb).writeRegs s.phys [rd, rd + 1] (s.wordsAt 2 x.addr)).advance := by
    simp only [loadDouble, doubleMisaligned, misaligned_of_zero ha, hload, Acc.finish, Bool.false_eq_true, if_false]
    rfl
  have hdone := Done.writeRegs (physReg_injective s.cpsr.m) [rd, rd + 1] (s.wordsAt 2 x.addr) (s.back rn x) _ (by simp)
    (fun r hr h15 => by
      rcases List.mem_cons.mp hr with rfl | hr
      · exact hx.phys_not_mem s h15
      · exact List.mem_singleton.mp hr ▸ hx1.phys_not_mem s h2)
    ((hr.writes hc).done_back hx.fitsBase)
  have hplaced : placed (physReg s.cpsr.m) [rd, rd + 1] (s.wordsAt 2 x.addr) =
      [(s.phys rd, s.valueAt 4 x.addr), (s.phys (rd + 1), s.valueAt 4 (x.addr + 4))] := by
    rw [wordsAt_succ, wordsAt_succ, placed_cons h1, placed_cons h2]
    rfl
  rw [hexec, ← hplaced]
  exact hdone.gives_advance false

/-- A doubleword that completes is in two words which share no place (R111, R104). -/
theorem places_disjoint {a : Word} (ha : a.toNat % 8 = 0) (h : ∀ m, s.dataPort a = .tcm m → s.tcmSize m ≠ 0) {q : Place}
    (hq : q ∈ s.places 4 a) : q ∉ s.places 4 (a + 4) := by
  intro hq'
  obtain ⟨hp, hlo, hhi⟩ := mem_places.mp hq
  obtain ⟨hp', hlo', -⟩ := mem_places.mp hq'
  have hnext : (a + 4).toNat = a.toNat + 4 := by bv_omega
  have hfirst : s.firstPlace 4 (a + 4) = s.firstPlace 4 a + 4 := by
    rw [State.firstPlace, State.firstPlace, ← hp', ← hp]
    have hforced : forced 4 a = a.toNat := by rw [forced]; omega
    have hforced' : forced 4 (a + 4) = a.toNat + 4 := by rw [forced, hnext]; omega
    cases hport : q.1 with
    | tcm m =>
      have hoff := tcmOffset_next (h m (hp ▸ hport)) ha
      have hlow := (tcmOffset_aligned (h m (hp ▸ hport)) a.toNat).1
      simp only [hforced, hforced', hoff]
      rw [lane_word _ (by omega), lane_word _ (by omega)]
      omega
    | ahb =>
      simp only [hforced, hforced']
      rw [lane_word _ (by omega), lane_word _ (by omega)]
      omega
  omega

/-- STRD that completes: two words, and the base (R371). -/
theorem storeDouble_gives (hx : x.FitsBase rn) (ha : x.addr.toNat % 8 = 0) (hc : s.Clean) (hall : s.AnswersAll .write 2 x.addr) :
    Gives (storeDouble rn rd x s) s s.nextAddr s.cpsr (s.back rn x)
      [⟨x.addr, 4, s.reg rd⟩, ⟨x.addr + 4, 4, s.reg (rd + 1)⟩] := by
  obtain ⟨hin, hans⟩ := hall
  have h0 : s.Answers .write 4 s.priv x.addr := word_zero x.addr ▸ hans 0 (by decide)
  have h1 : s.Answers .write 4 s.priv (x.addr + 4) := hans 1 (by decide)
  obtain ⟨b, t, ht, hw⟩ := storeData_completes (swap := false) false (s.reg rd) hc h0
  obtain ⟨b', t', ht', hw'⟩ := storeData_completes (swap := false) b (s.reg (rd + 1)) hw.clean (hw.frame.answers h1)
  have hstore : storeWords s.priv false [s.reg rd, s.reg (rd + 1)] x.addr s = .ok () t' := by
    simp only [storeWords, pause_none _ _ hin, pause_none _ _ (hw.frame.inside.trans hin), ht, ht', Acc.bind]
  have hexec : storeDouble rn rd x s = .next (t'.backTo rn x.wb).advance := by
    simp only [storeDouble, doubleMisaligned, misaligned_of_zero ha, hstore, Acc.finish, Bool.false_eq_true, if_false]
    rfl
  have hsize : ∀ m, s.dataPort x.addr = .tcm m → s.tcmSize m ≠ 0 := fun m hm => by
    obtain ⟨-, -, hport⟩ := h0
    rw [hm] at hport
    exact hport.1
  have hboth := hw.append hw' fun v hv v' hv' q hq => by
    obtain rfl := List.mem_singleton.mp hv
    obtain rfl := List.mem_singleton.mp hv'
    exact places_disjoint ha hsize hq
  rw [hexec]
  exact (hboth.done_back hx).gives_advance false

theorem doubleMisaligned_of_ne {a : Word} (ha : a.toNat % 8 ≠ 0) : doubleMisaligned a = true := bne_iff_ne.mpr ha

/-- LDRD at an address that is not a multiple of 8, with A = 0, is refused (R118, R370). -/
theorem loadDouble_refused (ha : x.addr.toNat % 8 ≠ 0) (hA : s.ctl.a = false) :
    loadDouble rn rd x s = unpredictable .misalignedDouble := by
  simp only [loadDouble, doubleMisaligned_of_ne ha, hA, Bool.false_eq_true, if_true, if_false]

/-- STRD at an address that is not a multiple of 8, with A = 0, is refused (R118, R371). -/
theorem storeDouble_refused (ha : x.addr.toNat % 8 ≠ 0) (hA : s.ctl.a = false) :
    storeDouble rn rd x s = unpredictable .misalignedDouble := by
  simp only [storeDouble, doubleMisaligned_of_ne ha, hA, Bool.false_eq_true, if_true, if_false]

end

/-- Settles O33: both forms are LDRD and STRD at their address, whose checks name the pair and spare the base. -/
theorem doublewordTransfersTwoWords : Obligations.DoublewordTransfersTwoWords := by
  unfold Obligations.DoublewordTransfersTwoWords
  intro c p u w rn rd rm iH iL s x i j hc hforms
  have hload : exec i s = conditional c s (guarded i.check (loadDouble rn rd x s)) := by
    rcases hforms with ⟨rfl, -, rfl⟩ | ⟨rfl, -, rfl⟩ <;> rfl
  have hstore : exec j s = conditional c s (guarded j.check (storeDouble rn rd x s)) := by
    rcases hforms with ⟨-, rfl, rfl⟩ | ⟨-, rfl, rfl⟩ <;> rfl
  have hpair (h : i.check = none) : oddPairCheck rd = false ∧ x.Spares rn rd ∧ x.Spares rn (rd + 1) := by
    rcases hforms with ⟨rfl, -, rfl⟩ | ⟨rfl, -, rfl⟩ <;>
    exact ldrdCheck_spares h (by simp) (by simp) (by simp)
  have hbase (h : j.check = none) : x.FitsBase rn := by
    rcases hforms with ⟨-, rfl, rfl⟩ | ⟨-, rfl, rfl⟩ <;>
    exact (addressing_spares (rd := rd) h (by simp) (by simp)).fitsBase
  refine ⟨fun h ha hcl hall => ?_, fun h ha hcl hall => ?_, fun h ha hA => ?_, fun h ha hA => ?_⟩
  · obtain ⟨hodd, hrd, hrd1⟩ := hpair h
    rw [exec_of_check hload hc h]
    exact loadDouble_gives hodd hrd hrd1 ha hcl hall
  · rw [exec_of_check hstore hc h]
    exact storeDouble_gives (hbase h) ha hcl hall
  · rw [exec_of_check hload hc h]
    exact loadDouble_refused ha hA
  · rw [exec_of_check hstore hc h]
    exact storeDouble_refused ha hA

/-! ### Load multiple with r15 (R354, R388, R390, R501) -/

section
variable {s : State} {rn : Reg} {list : BitVec 16} {start : Word}

/-- The write-back after the registers of a list that does not hold the base (R385). -/
theorem Done.loaded_back {w : Bool} {b : Word} {t : State} (hw : w = true → rn ≠ 15 ∧ rn ∉ listed list)
    (h : Done (s.loaded s.phys list start) [] s t) :
    Done ((if w then [(s.phys rn, b)] else []) ++ s.loaded s.phys list start) [] s (t.backTo rn (if w then some b else none)) := by
  cases w with
  | false => exact h
  | true =>
    obtain ⟨h15, hnot⟩ := hw rfl
    have hfree : s.phys rn ∉ (s.loaded s.phys list start).map Prod.fst := fun hm => by
      rw [loaded_eq_placed] at hm
      obtain ⟨r, hr, hr15, he⟩ := mem_placed_fst hm
      exact hnot (physReg_injective s.cpsr.m rn r h15 hr15 he ▸ hr)
    exact (h.setReg b h15 hfree).congr fun x => by rw [if_pos rfl, List.mem_append, List.mem_append, or_comm]

/-- A load multiple with r15 that completes: the other registers and the base, then the pc by its last word (R388). -/
theorem loadMultiple_pc {hazard w : Bool} {b : Word} {writePc : Word → State → Result} (h15 : list.getLsbD 15 = true)
    (hw : w = true → rn ≠ 15 ∧ rn ∉ listed list) (hc : s.Clean) (hall : s.AnswersAll .read (listed list).length start) :
    ∃ u, loadMultiple s.phys hazard rn list start (if w then some b else none) writePc s =
        writePc (s.valueAt 4 (start + BitVec.ofNat 32 (4 * ((listed list).length - 1)))) u ∧
      Brings ((if w then [(s.phys rn, b)] else []) ++ s.loaded s.phys list start) s u := by
  obtain ⟨hin, hans⟩ := hall
  obtain ⟨t, hload, hr⟩ := loadWords_completes (listed list).length start s hin hc hans
  have hmem : (15 : Reg) ∈ listed list := mem_listed.mpr h15
  have hlast := wordsAt_getLastD s (List.length_pos_of_mem hmem).ne' start
  have hregs : Done (s.loaded s.phys list start) [] s (t.writeRegs s.phys (listed list) (s.wordsAt (listed list).length start)) := by
    rw [loaded_eq_placed]
    exact Done.writeRegs (physReg_injective s.cpsr.m) (listed list) _ [] t (listed_nodup list) (fun _ _ _ => List.not_mem_nil)
      (hr.writes hc).done
  refine ⟨_, ?_, (hregs.loaded_back (b := b) hw).brings⟩
  simp only [loadMultiple, hload, Acc.finish, h15, if_true, hlast]
  rfl

/-- What the check of LDM finds: a base that is not r15, nor in the list of a form that writes back (R184, R386). -/
theorem ldmCheck_base {w : Bool} (h : ldmCheck w rn list = none) (hw : w = true) : rn ≠ 15 ∧ rn ∉ listed list := by
  have h15 := firstOf_none h (rn == 15, .pcBase) (by simp)
  have hin := firstOf_none h (w && list.getLsbD rn.toNat, .baseInList) (by simp)
  rw [hw, Bool.true_and] at hin
  exact ⟨beq_eq_false_iff_ne.mp h15, fun hm => by simp [mem_listed.mp hm] at hin⟩

end

/-- The pc that a multiple load brings, by the LT rule (R354). -/
theorem Brings.gives_loadPc {dst : List (PhysReg × Word)} {s u : State} (h : Brings dst s u) (v : Word) :
    (s.ctl.lt = true → Gives (loadPc v u) s (v &&& (if s.cpsr.t then 0xFFFFFFFE else 0xFFFFFFFC)) s.cpsr dst []) ∧
    (s.ctl.lt = false → v.getLsbD 0 = true → Gives (loadPc v u) s (v &&& 0xFFFFFFFE) { s.cpsr with t := true } dst []) ∧
    (s.ctl.lt = false → v.toNat % 4 = 0 → Gives (loadPc v u) s v { s.cpsr with t := false } dst []) ∧
    (s.ctl.lt = false → v.toNat % 4 = 2 → loadPc v u = .refused (.unpredictable .target)) := by
  have hcpsr := h.cpsr
  have hctl := h.ctl
  refine ⟨fun hlt => ?lt, fun hlt hbit => ?thumb, fun hlt hv => ?arm, fun hlt hv => loadPc_refused (by rw [hctl, hlt]) hv⟩
  case lt =>
    have hload : loadPc v u = .next (u.branchTo (if s.cpsr.t then clearLow 1 v else clearLow 2 v)) := by
      simp only [loadPc, hctl, hlt, hcpsr, Bool.not_true, Bool.false_eq_true, if_false]
    have hmask : (if s.cpsr.t then clearLow 1 v else clearLow 2 v) = v &&& (if s.cpsr.t then 0xFFFFFFFE else 0xFFFFFFFC) := by
      split <;> rfl
    rw [hload, hmask, ← hcpsr]
    exact h.gives_branch u.cpsr _
  case thumb =>
    have hodd : v.toNat % 2 = 1 := of_decide_eq_true ((bit_zero_eq v).symm.trans hbit)
    rw [loadPc_exchange (by rw [hctl, hlt]) (by omega), hbit, ← hcpsr]
    exact h.gives_branch { u.cpsr with t := true } _
  case arm =>
    have hbit : v.getLsbD 0 = false := (bit_zero_eq v).trans (decide_eq_false (by omega))
    have heven : clearLow 1 v = v := BitVec.eq_of_toNat_eq (by rw [clearLow_one_toNat]; omega)
    rw [loadPc_exchange (by rw [hctl, hlt]) (by omega), hbit, heven, ← hcpsr]
    exact h.gives_branch { u.cpsr with t := false } _

/-- The pc that LDM(3) brings: the return from an exception to a legal mode (R390, R580). -/
theorem Brings.gives_return {dst : List (PhysReg × Word)} {s u : State} {e : ExcMode} (h : Brings dst s u) (v : Word)
    (he : excMode s.cpsr.m = some e) (hl : legalMode (s.spsr e).m = true) :
    ((s.spsr e).t = true → Gives (exceptionReturn v u) s (v &&& 0xFFFFFFFE) (s.spsr e) dst []) ∧
    ((s.spsr e).t = false → v.toNat % 4 = 0 → Gives (exceptionReturn v u) s v (s.spsr e) dst []) ∧
    ((s.spsr e).t = false → v.toNat % 4 ≠ 0 → exceptionReturn v u = .refused (.unpredictable .target)) := by
  have hcpsr := h.cpsr
  have ⟨_, _, _, hspsrs, _, _⟩ := h
  have hspsr : u.spsr e = s.spsr e := by
    unfold State.spsr
    rw [hspsrs]
  rw [exceptionReturn_of_legal v (hcpsr ▸ he) (hspsr ▸ hl), hspsr]
  refine ⟨fun ht => ?_, fun ht hv => ?_, fun ht hv => ?_⟩
  · rw [if_pos ht]
    exact h.gives_branch _ _
  · rw [if_neg (ne_true_of_eq_false ht), if_pos ((low_two_zero_iff v).mpr hv)]
    exact h.gives_branch _ _
  · rw [if_neg (ne_true_of_eq_false ht), if_neg (mt (low_two_zero_iff v).mp hv)]
    rfl

theorem bankedModeOnly_none {s : State} (k : Result) (h : excMode s.cpsr.m = none) :
    bankedModeOnly s k = .refused (.unpredictable .noSpsr) := by
  rw [bankedModeOnly, h]
  rfl

theorem bankedModeOnly_some {s : State} {e : ExcMode} (k : Result) (h : excMode s.cpsr.m = some e) : bankedModeOnly s k = k := by
  rw [bankedModeOnly, h]

/-- A list with bit 15 holds r15. -/
theorem append_holds_pc (l : BitVec 15) : (1#1 ++ l : BitVec 16).getLsbD 15 = true :=
  BitVec.getLsbD_append (x := 1#1) (y := l) (i := 15)

/-- The list of POP with the pc holds r15, and not the stack pointer (R501). -/
theorem pop_list (r : BitVec 8) : (0x80#8 ++ r : BitVec 16).getLsbD 15 = true ∧ (13 : Reg) ∉ listed (0x80#8 ++ r) := by
  have hbit (k : Nat) (hk : 8 ≤ k) : (0x80#8 ++ r : BitVec 16).getLsbD k = (0x80#8).getLsbD (k - 8) :=
    (BitVec.getLsbD_append (x := 0x80#8) (y := r)).trans (if_neg (by omega))
  refine ⟨hbit 15 (by decide), fun h => ?_⟩
  have h13 := (hbit 13 (by decide)).symm.trans (mem_listed.mp h)
  exact absurd h13 (by decide)

/-- Settles O36: each form is a load multiple with r15, whose last word goes to the pc by the LT rule or as a return. -/
theorem loadMultipleOfThePcBranches : Obligations.LoadMultipleOfThePcBranches := by
  unfold Obligations.LoadMultipleOfThePcBranches
  intro c p u w rn l r s branches
  refine ⟨fun hc hcheck hcl hall => ?ldm1, fun hcheck hcl hall => ?pop, fun hc => ?ldm3⟩
  case ldm1 =>
    obtain ⟨t, hload, hb⟩ := loadMultiple_pc (hazard := false) (b := multiBack u (listed (1#1 ++ l)).length (s.reg rn))
      (writePc := loadPc) (append_holds_pc l) (ldmCheck_base hcheck) hcl hall
    have hexec : exec (.ldm1 c p u w rn (1#1 ++ l)) s = _ := (exec_of_check rfl hc hcheck).trans hload
    rw [hexec]
    exact hb.gives_loadPc _
  case pop =>
    obtain ⟨h15, h13⟩ := pop_list r
    obtain ⟨t, hload, hb⟩ := loadMultiple_pc (hazard := false) (rn := 13) (w := true)
      (b := multiBack true (listed (0x80#8 ++ r)).length (s.reg 13)) (writePc := loadPc) h15 (fun _ => ⟨by decide, h13⟩) hcl hall
    have hexec : exec (.tPop true r) s = _ := hload
    rw [hexec]
    exact hb.gives_loadPc _
  case ldm3 =>
    intro list n start v dst i hcheck
    have hexec : exec i s = _ := exec_of_check rfl hc hcheck
    rw [hexec]
    refine ⟨bankedModeOnly_none _, fun e he hl hcl hall => ?_⟩
    obtain ⟨t, hload, hb⟩ := loadMultiple_pc (hazard := false) (b := multiBack u n (s.reg rn)) (writePc := exceptionReturn)
      (append_holds_pc l) (ldmCheck_base hcheck) hcl hall
    rw [bankedModeOnly_some _ he]
    exact hload ▸ hb.gives_return _ he hl

end Sys2Proof.Machine

/-! PROOF. MCR to CP15 (R132, R136, R232, R236, R240, R242, R244, R246): the reserved bits as masks, the drain of all write buffers;
the statement O42. -/

namespace Sys2Proof.Machine

/-! ### Reserved bits -/

/-- A bit of a word, alone at its place. -/
theorem bitAt_getLsbD (v : Word) (k : Nat) : bitAt (v.getLsbD k) k = v &&& BitVec.twoPow 32 k := by
  rw [BitVec.and_twoPow]
  rfl

/-- A word whose bits outside a mask are prescribed is that prescription with its own bits under the mask. -/
theorem or_and_eq_iff {f m v : Word} (h : f &&& m = 0) : f ||| v &&& m = v ↔ v &&& ~~~m = f := by
  have hbit (i : Nat) : (f.getLsbD i && m.getLsbD i) = false := by
    rw [← BitVec.getLsbD_and, h]
    exact BitVec.getLsbD_zero
  have hor (a b c : Bool) (h : (a && b) = false) : (a || c && b) = c ↔ (c && !b) = a := by
    revert a b c
    decide
  constructor <;>
  · intro hv
    refine BitVec.eq_of_getLsbD_eq fun i hi => ?_
    have hvi := congrArg (BitVec.getLsbD · i) hv
    simp only [BitVec.getLsbD_or, BitVec.getLsbD_and, BitVec.getLsbD_not, hi, decide_true, Bool.true_and, hor _ _ _ (hbit i)] at hvi ⊢
    exact hvi

/-- What R236 asks of a word written to the Control Register. -/
theorem control_roundTrip (v : Word) : (Control.ofWord v).toWord = v ↔ v &&& 0xFFFF4F71 = 0x00000F70 := by
  have hword : (Control.ofWord v).toWord = 0x00000F70 ||| v &&& 0x0000B08E := by
    rw [Control.toWord_eq]
    simp only [Control.ofWord, bitAt_getLsbD, BitVec.or_assoc, ← BitVec.and_or_distrib_left]
    rfl
  rw [hword, or_and_eq_iff (by decide)]
  rfl

/-- What R242 asks of a word written to the Configuration Control Register. -/
theorem config_roundTrip (v : Word) : (ConfigCtl.ofWord v).toWord = v ↔ v &&& 0xFFF8FFF9 = 0 := by
  have hword : (ConfigCtl.ofWord v).toWord = 0#32 ||| v &&& 0x00070006 := by
    rw [ConfigCtl.toWord_eq]
    simp only [ConfigCtl.ofWord, bitAt_getLsbD, BitVec.or_assoc, ← BitVec.and_or_distrib_left]
    rw [BitVec.zero_or]
    rfl
  rw [hword, or_and_eq_iff (by decide)]
  rfl

/-! ### The writes -/

section
variable {s : State} {v : Word}

theorem firstOf_cons_true (u : Unpred) (l : List (Bool × Unpred)) : firstOf ((true, u) :: l) = some u := rfl
theorem firstOf_cons_false (u : Unpred) (l : List (Bool × Unpred)) : firstOf ((false, u) :: l) = firstOf l := rfl

/-- A TCM may be switched off once its write buffer is empty (R132). -/
theorem switchOff_eq_false (e w : Bool) (l : List TcmEntry) : (e && !w && !l.isEmpty) = false ↔ l = [] ∨ w = true ∨ e = false := by
  cases l <;> cases e <;> cases w <;> simp

theorem controlRefusal_reserved (h : v &&& 0xFFFF4F71 ≠ 0x00000F70) : s.controlRefusal v = some .cpReserved := by
  rw [State.controlRefusal, bne_iff_ne.mpr (mt (control_roundTrip v).mp h), firstOf_cons_true]

/-- A word with the prescribed bits is refused only where it switches off a TCM with pending stores (R132, R236). -/
theorem controlRefusal_eq (h : v &&& 0xFFFF4F71 = 0x00000F70) : s.controlRefusal v =
    firstOf [(s.ctl.i && !v.getLsbD 12 && !s.itcmWB.isEmpty, .tcmNotDrained),
      (s.ctl.d && !v.getLsbD 2 && !s.dtcmWB.isEmpty, .tcmNotDrained)] := by
  have hround : ((Control.ofWord v).toWord != v) = false := by simpa using (control_roundTrip v).mpr h
  rw [State.controlRefusal, hround, firstOf_cons_false]
  rfl

theorem configRefusal_eq (v : Word) : configRefusal v = if v &&& 0xFFF8FFF9 = 0 then none else some .cpReserved := by
  have hround : ((ConfigCtl.ofWord v).toWord != v) = !decide (v &&& 0xFFF8FFF9 = 0) := by
    rw [bne, ← decide_eq_decide.mpr (config_roundTrip v)]
    rfl
  rw [configRefusal, hround]
  by_cases h : v &&& 0xFFF8FFF9 = 0 <;> simp [firstOf]

end

/-! ### The drain of all write buffers (R246) -/

theorem reads_drainTcmAll {s : State} (hc : s.Clean) (m : Tcm) : Reads s (s.drainTcmAll m) :=
  (drained_drainTcmAll (hc.2 m)).reads (shrinks_drainTcmAll s m)

/-- A write buffer of a TCM that is emptied is empty (R128). -/
theorem drainTcmAll_tcmWB (s : State) (m : Tcm) : (s.drainTcmAll m).tcmWB m = [] := by
  have fold : ∀ (l : List TcmEntry) (s : State), s.tcmWB m = [] →
      (l.foldl (fun s e => s.putRam m e.off e.size e.data) s).tcmWB m = [] := by
    intro l
    induction l with
    | nil => exact fun s h => h
    | cons e r ih =>
      exact fun s h => ih _ (List.sublist_nil.mp (h ▸ (shrinks_putRam s m e.off e.size e.data).tcm m))
  exact fold _ _ (by rw [State.tcmWB_setTcmWB, if_pos rfl])

/-- The drain of all write buffers leaves them empty, and nothing that loads see changes (R246). -/
theorem drainAll_reads {s : State} (hc : s.Clean) :
    Reads s s.drainAll ∧ s.drainAll.ahbWB = [] ∧ s.drainAll.itcmWB = [] ∧ s.drainAll.dtcmWB = [] := by
  have hahb := reads_drainAhbAll hc
  have hitcm := reads_drainTcmAll (hahb.clean hc) .itcm
  have hdtcm := reads_drainTcmAll ((hahb.trans hitcm).clean hc) .dtcm
  have hi := shrinks_drainTcmAll s.drainAhbAll .itcm
  have hd := shrinks_drainTcmAll (s.drainAhbAll.drainTcmAll .itcm) .dtcm
  refine ⟨(hahb.trans hitcm).trans hdtcm, List.sublist_nil.mp ?_, List.sublist_nil.mp ?_, drainTcmAll_tcmWB _ .dtcm⟩
  · exact drainAhbAll_ahbWB s ▸ hd.ahb.trans hi.ahb
  · exact drainTcmAll_tcmWB s.drainAhbAll .itcm ▸ hd.itcm

theorem drainAll_standby {s : State} (hc : s.Clean) : s.drainAll.standby = s.standby := by
  obtain ⟨hr, -⟩ := drainAll_reads hc
  rw [hr.frame]

/-- What a drain leaves, but for Standby and the words of the pipeline (R244, R246). -/
theorem drain_clauses {s t : State} (hc : s.Clean) (ht : t = { s.drainAll.advance with standby := t.standby, pipe := t.pipe }) :
    t.ahbWB = [] ∧ t.itcmWB = [] ∧ t.dtcmWB = [] ∧ MemoryStays s t ∧ RegistersBecome [] s t ∧ t.spsrs = s.spsrs ∧
      SystemStays s { t with standby := s.standby } ∧ t.pc = s.nextAddr ∧ t.cpsr = s.cpsr := by
  obtain ⟨hr, ha, hi, hd⟩ := drainAll_reads hc
  have hdone : Done [] [] s s.drainAll := (hr.writes hc).done
  have ⟨_, hcpsr, hspsrs, _, ⟨_, hregs⟩, ⟨_, hseen⟩, hsys⟩ := hdone
  rw [ht]
  refine ⟨ha, hi, hd, ⟨nofun, hseen⟩, ⟨nofun, hregs⟩, hspsrs, ?_, hdone.nextAddr, hcpsr⟩
  rw [SystemStays] at hsys ⊢
  rw [hsys]
  rfl

/-! ### MCR (R230, R232) -/

section
variable {c : Cond} {rd : Reg} {s : State} {o1 op2 : BitVec 3} {crn crm : BitVec 4}

/-- In a privileged mode an MCR does what the selector names (R230, R232). -/
theorem mcr15_of_some (hc : s.cpsr.passes c = true) (hp : s.priv = true) (hrd : rd ≠ 15) {r : Cp15}
    (h : cp15Select o1 crn crm op2 = some r) : exec (.mcr15 c o1 crn rd op2 crm) s = cp15Write r (s.reg rd) s := by
  show execMcr15 c o1 crn rd op2 crm s = _
  simp only [execMcr15, conditional_pass hc, privilegedOnly_of_priv _ hp, noPcCheck_none hrd, guarded_none, h]

/-- A selector that names nothing is refused (R232). -/
theorem mcr15_of_none (hc : s.cpsr.passes c = true) (hp : s.priv = true) (hrd : rd ≠ 15)
    (h : cp15Select o1 crn crm op2 = none) : exec (.mcr15 c o1 crn rd op2 crm) s = .refused (.unpredictable .cpSelector) := by
  show execMcr15 c o1 crn rd op2 crm s = unpredictable .cpSelector
  simp only [execMcr15, conditional_pass hc, privilegedOnly_of_priv _ hp, noPcCheck_none hrd, guarded_none, h]

/-- A selector that R232 does not list for writing is refused. -/
theorem mcr15_unlisted (hc : s.cpsr.passes c = true) (hp : s.priv = true) (hrd : rd ≠ 15)
    (hlist : (o1, crn, op2, crm) ∉ [(0, 1, 0, 0), (0, 7, 4, 0), (0, 15, 2, 8), (0, 7, 4, 10), (1, 15, 0, 1)])
    (htrace : ¬ (o1 = 0 ∧ crn = 13 ∧ op2 = 1)) : exec (.mcr15 c o1 crn rd op2 crm) s = .refused (.unpredictable .cpSelector) := by
  simp only [List.mem_cons, List.not_mem_nil, Prod.mk.injEq, or_false, not_or, and_comm (a := op2 = _)] at hlist
  obtain ⟨hctl, hwait, hwait', hdrain, hcfg⟩ := hlist
  have hselect : cp15Select o1 crn crm op2 =
      if o1 = 0 ∧ crn = 0 ∧ crm = 0 then (if op2 = 2 then some .tcmSize else some .deviceId) else none := by
    rw [cp15Select, if_neg hctl, if_neg hwait, if_neg hwait', if_neg hdrain, if_neg htrace, if_neg hcfg]
  by_cases hid : o1 = 0 ∧ crn = 0 ∧ crm = 0
  · rw [if_pos hid] at hselect
    by_cases h2 : op2 = 2
    · exact mcr15_of_some hc hp hrd (hselect.trans (if_pos h2))
    · exact mcr15_of_some hc hp hrd (hselect.trans (if_neg h2))
  · exact mcr15_of_none hc hp hrd (hselect.trans (if_neg hid))

end

/-- Settles O42, register by register. -/
theorem cp15WritesItsRegisters : Obligations.Cp15WritesItsRegisters := by
  unfold Obligations.Cp15WritesItsRegisters
  intro c rd o1 o2 crn crm s hc hp hrd v goes
  have mcr {o1 op2 : BitVec 3} {crn crm : BitVec 4} {r : Cp15} (h : cp15Select o1 crn crm op2 = some r) :
      exec (.mcr15 c o1 crn rd op2 crm) s = cp15Write r v s := mcr15_of_some hc hp hrd h
  refine ⟨fun hv hi hd => ?control, fun hv => ?reserved, fun hv hoff => ?switchedOff, fun hv => ?config, fun hv => ?configReserved,
    mcr (r := .traceProcId) rfl, mcr15_unlisted hc hp hrd, fun hcl i hi => ?drain⟩
  case control =>
    refine ⟨(s.putControl v).oldRoutes, (mcr (r := .control) rfl).trans ?_⟩
    rw [cp15Write, cp15Put, controlRefusal_eq hv, (switchOff_eq_false _ _ _).mpr hi, (switchOff_eq_false _ _ _).mpr hd]
    rfl
  case reserved =>
    rw [mcr (r := .control) rfl, cp15Write, cp15Put, controlRefusal_reserved hv]
    rfl
  case switchedOff =>
    rw [mcr (r := .control) rfl, cp15Write, cp15Put, controlRefusal_eq hv]
    rcases hoff with ⟨hwb, hon, hbit⟩ | ⟨hwb, hon, hbit⟩
    · rw [hon, hbit, List.isEmpty_eq_false_iff.mpr hwb]
      rfl
    · rw [hon, hbit, List.isEmpty_eq_false_iff.mpr hwb]
      cases s.ctl.i && !v.getLsbD 12 && !s.itcmWB.isEmpty <;> rfl
  case config =>
    refine ⟨(s.putConfig v).oldRoutes, (mcr (r := .config) rfl).trans ?_⟩
    rw [cp15Write, cp15Put, configRefusal_eq, if_pos hv]
    rfl
  case configReserved =>
    rw [mcr (r := .config) rfl, cp15Write, cp15Put, configRefusal_eq, if_neg hv]
    rfl
  case drain =>
    simp only [List.mem_cons, List.not_mem_nil, or_false] at hi
    rcases hi with rfl | rfl | rfl
    · obtain ⟨ha, hi, hd, hm, hregs, hrest⟩ := drain_clauses (t := s.drainAll.barrier.advance) hcl rfl
      exact ⟨_, mcr (r := .drainBuffers) rfl, ha, hi, hd, hm, (drainAll_standby hcl).trans (if_pos rfl).symm, hregs, hrest⟩
    all_goals
      obtain ⟨ha, hi, hd, hm, hregs, hrest⟩ := drain_clauses (t := s.enterStandby.advance) hcl rfl
      exact ⟨_, mcr (r := .waitForInterrupt) rfl, ha, hi, hd, hm, (if_neg (by simp)).symm, hregs, hrest⟩

end Sys2Proof.Machine

/-! PROOF. The turns of the memory agents (R122, R128, R143, R151 to R154): the drains and the DMA master; the statement O58. -/

namespace Sys2Proof.Machine

/-! ### A write to the RAM of a TCM (R128, R143, U40) -/

section
variable (s : State) (m : Tcm)

/-- A write to the RAM of a TCM changes that RAM alone, and draws free values only if it meets an error. -/
theorem putRam_frame (o n : Nat) (v : Word) : let t := s.putRam m o n v
    t = { s with itcm := t.itcm, dtcm := t.dtcm, free := t.free } ∧ (s.tcmWriteError m o = false → t.free = s.free) ∧
      ∀ u ≠ m, t.ram u = s.ram u := by
  rcases s.putRam_cases m o n v with ⟨-, h⟩ | ⟨herr, bs, -, h, -⟩
  · rw [h]
    refine ⟨by cases m <;> rfl, fun _ => by cases m <;> rfl, fun u hu => ?_⟩
    rw [State.ram_setRam, if_neg hu]
  · rw [h, herr]
    refine ⟨by cases m <;> rfl, nofun, fun u hu => ?_⟩
    exact (State.ram_setRam ..).trans (if_neg hu)

/-- The bytes that a write to the RAM of a TCM leaves there without an error: its own, where it covers them. -/
theorem putRam_ramByte_ok {e : TcmEntry} (h : s.tcmWriteError m e.off = false) (j : Nat) :
    (s.putRam m e.off e.size e.data).ramByte m j = (e.byte? j).getD (s.ramByte m j) := by
  rw [State.putRam_ok _ _ _ _ _ h, State.ramByte, State.ram_setRam, if_pos rfl, Memory.get?_entry]
  cases e.byte? j <;> rfl

/-- The bytes that a write to the RAM of a TCM leaves there: each the old one, or the new one of the write. -/
theorem putRam_ramByte_cases (e : TcmEntry) (j : Nat) :
    (s.putRam m e.off e.size e.data).ramByte m j = s.ramByte m j ∨
      e.byte? j = some ((s.putRam m e.off e.size e.data).ramByte m j) := by
  rcases s.putRam_cases m e.off e.size e.data with ⟨hok, -⟩ | ⟨-, bs, hlen, h, hbs⟩
  · rw [putRam_ramByte_ok s m hok]
    cases hb : e.byte? j with
    | none => exact .inl rfl
    | some b => exact .inr rfl
  · have hram : (s.putRam m e.off e.size e.data).ram m = (s.ram m).setBytes e.off bs := by
      rw [h]
      exact (State.ram_setRam ..).trans (if_pos rfl)
    rw [State.ramByte, hram, Memory.get?_setBytes, hlen]
    split
    next hin =>
      have hj : e.off + (j - e.off) = j := by omega
      have hbyte := hbs (j - e.off) (by omega)
      rw [hj] at hbyte
      rcases hbyte with hb | hb
      · exact .inl (by rw [hb]; rfl)
      · exact .inr (by rw [hb, TcmEntry.byte?, if_pos hin]; rfl)
    next => exact .inl rfl

end

/-! ### The drains (R122, R128) -/

theorem putAhb_ahbWB (s : State) (k : AhbKind) (a n : Nat) (v : Word) (priv : Bool) : (s.putAhb k a n v priv).ahbWB = s.ahbWB := by
  rw [State.putAhb]
  split
  · split <;> rfl
  · rfl

/-- A drain of the AHB write buffer takes its oldest entry (R122). -/
theorem drainAhb_ahbWB (s : State) : s.drainAhb.ahbWB = s.ahbWB.tail := by
  rw [State.drainAhb]
  split
  next h => rw [h]; rfl
  next e r h => rw [putAhb_ahbWB, h]; rfl

theorem putRam_tcmWB (s : State) (m : Tcm) (o n : Nat) (v : Word) (u : Tcm) : (s.putRam m o n v).tcmWB u = s.tcmWB u := by
  obtain ⟨h, -⟩ := putRam_frame s m o n v
  rw [h]
  cases u <;> rfl

/-- A drain of a TCM write buffer that holds data is the write of its oldest entry (R128). -/
theorem drainTcm_cons {s : State} {m : Tcm} {e : TcmEntry} {l : List TcmEntry} (h : s.tcmWB m = e :: l) :
    s.drainTcm m = (s.setTcmWB m l).putRam m e.off e.size e.data := by
  rw [State.drainTcm, h]

theorem drainTcm_nil {s : State} {m : Tcm} (h : s.tcmWB m = []) : s.drainTcm m = s := by
  rw [State.drainTcm, h]

/-- What a drain of a TCM write buffer does, with an error or without (R128, R143). -/
theorem drainTcm_spec {s : State} {m : Tcm} {e : TcmEntry} {l : List TcmEntry} (h : s.tcmWB m = e :: l) :
    let t := s.drainTcm m
    t.tcmWB m = l ∧
      t = { s with itcm := t.itcm, dtcm := t.dtcm, itcmWB := t.itcmWB, dtcmWB := t.dtcmWB, free := t.free } ∧
      (s.tcmWriteError m e.off = false → t.free = s.free) ∧
      (∀ m' ≠ m, t.ram m' = s.ram m' ∧ t.tcmWB m' = s.tcmWB m') ∧
      (∀ j, t.ramByte m j = s.ramByte m j ∨ e.byte? j = some (t.ramByte m j)) ∧
      (s.tcmWriteError m e.off = false → ∀ j, t.ramByte m j = (e.byte? j).getD (s.ramByte m j)) := by
  obtain ⟨hframe, hfree, hram⟩ := putRam_frame (s.setTcmWB m l) m e.off e.size e.data
  have hold (j : Nat) : (s.setTcmWB m l).ramByte m j = s.ramByte m j := by rw [State.ramByte, State.ram_setTcmWB, State.ramByte]
  rw [drainTcm_cons h]
  rw [State.tcmWriteError_setTcmWB] at hfree
  refine ⟨?_, ?_, fun herr => (hfree herr).trans (by cases m <;> rfl), fun m' hm => ⟨?_, ?_⟩, fun j => ?_, fun herr j => ?_⟩
  · rw [putRam_tcmWB, State.tcmWB_setTcmWB, if_pos rfl]
  · rw [hframe]
    cases m <;> rfl
  · rw [hram m' hm, State.ram_setTcmWB]
  · rw [putRam_tcmWB, State.tcmWB_setTcmWB, if_neg hm]
  · rw [← hold]
    exact putRam_ramByte_cases (s.setTcmWB m l) m e j
  · rw [← hold]
    exact putRam_ramByte_ok (s.setTcmWB m l) m (by rwa [State.tcmWriteError_setTcmWB]) j

/-- A drain that meets no error changes nothing that loads see, and draws no free value (R128, R129). -/
theorem drainTcm_clean {s : State} {m : Tcm} (hc : s.CleanTcm m) : let t := s.drainTcm m
    t.tcmWB m = (s.tcmWB m).tail ∧ MemoryStays s t ∧
      t = { s with itcm := t.itcm, dtcm := t.dtcm, itcmWB := t.itcmWB, dtcmWB := t.dtcmWB } := by
  have hseen : MemoryStays s (s.drainTcm m) := by
    refine ⟨nofun, fun ⟨p, o⟩ _ => ?_⟩
    cases p with
    | tcm u => exact State.tcmByte_drainTcm s m u o hc
    | ahb =>
      have hf : s.drainTcm m = _ := tcmFrame_drainTcm s m
      rw [hf]
      rfl
  cases h : s.tcmWB m with
  | nil =>
    rw [drainTcm_nil h] at hseen ⊢
    exact ⟨h, hseen, rfl⟩
  | cons e l =>
    obtain ⟨hwb, hframe, hfree, -⟩ := drainTcm_spec h
    rw [hfree (hc e (h ▸ List.mem_cons_self ..))] at hframe
    exact ⟨hwb, hseen, hframe⟩

/-! ### The DMA master (R151 to R154) -/

/-- A byte that an entry covers. -/
theorem byte?_of_lt {k size j : Nat} {v : Word} (h : j < size) :
    TcmEntry.byte? ⟨k, size, v⟩ (k + j) = some (Machine.byteAt v j) := by
  rw [TcmEntry.byte?, if_pos (by simp only; omega)]
  simp

/-- A DMA write to a TCM that exists: the RAM under bit 22 of the address, at the lanes of the aligned address (R151 to R154). -/
theorem dmaWrite_spec {s : State} {a v : Word} {size : Nat} (hsize : size = 1 ∨ size = 2 ∨ size = 4)
    (hex : s.tcmSize (dmaTcm a) ≠ 0) :
    let k := lane s.ctl.b size (s.tcmOffset (dmaTcm a) (forced size a))
    ∃ t, dmaWrite a size v s = .next t ∧
      t = { s with itcm := t.itcm, dtcm := t.dtcm, pipe := t.pipe,
                   free := if s.tcmWriteError (dmaTcm a) k then t.free else s.free } ∧
      (s.tcmWriteError (dmaTcm a) k = false → (span k size).map (t.ramByte (dmaTcm a)) = wordBytes v size) ∧
      (∀ j < size, t.ramByte (dmaTcm a) (k + j) = s.ramByte (dmaTcm a) (k + j) ∨ t.ramByte (dmaTcm a) (k + j) = Machine.byteAt v j) ∧
      ∀ (m' : Tcm) (j : Nat), (m' ≠ dmaTcm a ∨ j ∉ span k size) → t.ramByte m' j = s.ramByte m' j := by
  have hlegal : legalSize size = true := by rcases hsize with rfl | rfl | rfl <;> rfl
  obtain ⟨m, hm⟩ : ∃ m, dmaTcm a = m := ⟨_, rfl⟩
  rw [hm] at hex ⊢
  intro k
  obtain ⟨pl, hpl⟩ : ∃ pl, (if m = .itcm then s.dmaTouches k else s) = { s with pipe := pl } := by
    split
    · exact ⟨_, rfl⟩
    · exact ⟨s.pipe, rfl⟩
  let u : State := { s with pipe := pl }
  have hwrite : dmaWrite a size v s = .next (u.putRam m k size v) := by
    rw [dmaWrite, hlegal, hm]
    simp only [Bool.not_true, Bool.false_eq_true, if_false, if_neg hex]
    exact congrArg (fun x => Host.Outcome.next (State.putRam x m k size v)) hpl
  have hram (m' : Tcm) (j : Nat) : u.ramByte m' j = s.ramByte m' j := by cases m' <;> rfl
  have herr : u.tcmWriteError m k = s.tcmWriteError m k := by cases m <;> rfl
  obtain ⟨hframe, hfree, hother⟩ := putRam_frame u m k size v
  have hcases (j : Nat) := putRam_ramByte_cases u m ⟨k, size, v⟩ j
  have hok (h : s.tcmWriteError m k = false) (j : Nat) := putRam_ramByte_ok u m (e := ⟨k, size, v⟩) (herr.trans h) j
  dsimp only at hcases hok
  refine ⟨_, hwrite, ?_, fun h => ?_, fun j hj => ?_, fun m' j hout => ?_⟩
  · have hdrawn : (if s.tcmWriteError m k then (u.putRam m k size v).free else s.free) = (u.putRam m k size v).free := by
      split
      · rfl
      · exact (hfree (herr.trans (eq_false_of_ne_true ‹_›))).symm
    rw [hdrawn]
    generalize u.putRam m k size v = t at hframe ⊢
    rw [hframe]
  · refine map_span_eq_wordBytes fun j hj => ?_
    rw [hok h, byte?_of_lt hj]
    rfl
  · rw [← hram]
    refine (hcases (k + j)).imp_right fun h => ?_
    rw [byte?_of_lt hj] at h
    exact (Option.some.inj h).symm
  · rw [← hram]
    by_cases hm' : m' = m
    · subst hm'
      refine (hcases j).resolve_right fun h => ?_
      rw [TcmEntry.byte?, if_neg fun hin => hout.elim (· rfl) (· (mem_span.mpr hin))] at h
      cases h
    · rw [State.ramByte, hother m' hm', State.ramByte]

/-- A DMA read of a TCM that exists and has no error support: the whole word of its RAM (R152, R153). -/
theorem dmaRead_eq {s : State} {a : Word} (hex : s.tcmSize (dmaTcm a) ≠ 0) (herr : s.params.tcmErrors = false) :
    dmaRead a s = .next { s with
      dmaOut := some { data := ofBytes ((span (s.tcmOffset (dmaTcm a) (forced 4 a)) 4).map (s.ramByte (dmaTcm a))), err := false } } := by
  simp only [dmaRead, if_neg hex, herr, Bool.false_and]

/-- The turns that are left are no part of memory. -/
theorem ramByte_agenda (s : State) (r : List Turn) : State.ramByte { s with agenda := r } = s.ramByte :=
  funext fun m => by cases m <;> rfl

/-- A turn of an agent on memory (R13). -/
theorem step_bus {s : State} {b : BusTurn} {r : List Turn} (hf : s.forbidden = none) (ha : s.agenda = .bus b :: r) :
    step s = busTurn b { s with agenda := r } := by
  rw [step, hf, ha]
  rfl

/-- Settles O58, agent by agent. -/
theorem agentsActOnMemoryByTheirRules : Obligations.AgentsActOnMemoryByTheirRules := by
  unfold Obligations.AgentsActOnMemoryByTheirRules
  intro s r hf
  refine ⟨fun hc ha => ?drainAhb, fun m hc ha => ?drainTcm, fun m e l hwb ha => ?drainError, ?write, ?read⟩
  case drainAhb =>
    rw [step_bus hf ha]
    have hframe := ahbFrame_drainAhb { s with agenda := r }
    refine ⟨_, rfl, drainAhb_ahbWB { s with agenda := r }, ⟨nofun, fun q _ => ?_⟩, hframe⟩
    exact (State.seen_drainAhb { s with agenda := r } hc q).1
  case drainTcm =>
    rw [step_bus hf ha]
    obtain ⟨hwb, hmem, hframe⟩ := drainTcm_clean (s := { s with agenda := r }) (m := m) hc
    exact ⟨_, rfl, hwb, hmem, hframe⟩
  case drainError =>
    rw [step_bus hf ha]
    obtain ⟨hnext, hframe, -, hother, hbytes⟩ := drainTcm_spec (s := { s with agenda := r }) hwb
    exact ⟨_, rfl, hnext, hframe, hother, hbytes⟩
  case write =>
    intro a v size ha hsize m hex k
    rw [step_bus hf ha]
    exact dmaWrite_spec (s := { s with agenda := r }) hsize hex
  case read =>
    intro a ha m hex herr
    rw [step_bus hf ha]
    show dmaRead a { s with agenda := r } = _
    have hread := dmaRead_eq (s := { s with agenda := r }) hex herr
    rw [hread, ramByte_agenda]
    rfl

end Sys2Proof.Machine

/-! PROOF. Accesses that abort (R118, R142, R350, R351, R545): the Data Abort of an instruction whose access failed, the reads and writes
that the AHB answers with an error, and what the stores before such a write leave of memory. -/

namespace Sys2Proof.Machine

/-! ### The Data Abort -/

/-- `u` is `s` but for the registers `lost` and the bytes of the stores `touched`: what an instruction whose access failed leaves. -/
structure Spoiled (lost : List PhysReg) (touched : List (Word × Nat)) (s u : State) : Prop where
  pc : u.pc = s.pc
  cpsr : u.cpsr = s.cpsr
  spsrs : u.spsrs = s.spsrs
  unrecoverable : u.unrecoverable = s.unrecoverable
  regs : ∀ q : PhysReg, q ∉ lost → u.getPhys q = s.getPhys q
  memory : ∀ q : Place, (∀ w ∈ touched, q ∉ s.places w.2 w.1) → u.seen q = s.seen q
  system : SystemStays s u

theorem MemFrame.spoiled {s t : State} (h : MemFrame s t) {touched : List (Word × Nat)}
    (hm : ∀ q : Place, (∀ w ∈ touched, q ∉ s.places w.2 w.1) → t.seen q = s.seen q) (lost : List PhysReg) :
    Spoiled lost touched s t := by
  refine ⟨?_, ?_, ?_, ?_, fun p _ => ?_, hm, ?_⟩
  case refine_6 => rw [SystemStays, h]
  all_goals rw [h]
  rfl

theorem Reads.spoiled {s t : State} (h : Reads s t) (lost : List PhysReg) : Spoiled lost [] s t :=
  h.frame.spoiled (fun q _ => h.seen q) lost

/-- Reads before an access that failed. -/
theorem Reads.then_spoiled {s t u : State} {lost : List PhysReg} {touched : List (Word × Nat)} (h : Reads s t)
    (k : Spoiled lost touched t u) : Spoiled lost touched s u := by
  have hs := h.spoiled lost
  obtain ⟨hpc, hcpsr, hspsrs, hun, hregs, hmem, hsys⟩ := k
  refine ⟨hpc.trans hs.pc, hcpsr.trans hs.cpsr, hspsrs.trans hs.spsrs, hun.trans hs.unrecoverable,
    fun q hq => (hregs q hq).trans (hs.regs q hq), fun q hq => (hmem q ?_).trans (h.seen q), ?_⟩
  · simpa only [h.frame.places] using hq
  · have hst := hs.system
    rw [SystemStays] at hsys hst ⊢
    rw [hsys, hst]

section
variable {lost : List PhysReg} {touched : List (Word × Nat)} {s u : State}

/-- Free values in registers that are lost anyway (R387, U9). -/
theorem Spoiled.freeRegs (ps : List PhysReg) : ∀ {u : State}, (∀ p ∈ ps, p ∈ lost) → Spoiled lost touched s u →
    Spoiled lost touched s (u.freeRegs ps) := by
  induction ps with
  | nil => exact fun _ h => h
  | cons p ps ih =>
    intro u hps h
    obtain ⟨hpc, hcpsr, hspsrs, hun, hregs, hmem, hsys⟩ := h
    refine ih (u := u.freePhys p) (fun q hq => hps q (List.mem_cons_of_mem _ hq)) ⟨hpc, hcpsr, hspsrs, hun, fun q hq => ?_, hmem, ?_⟩
    · have hne : q ≠ p := fun e => hq (e ▸ hps p (List.mem_cons_self ..))
      rw [← hregs q hq]
      exact (State.getPhys_setPhys ..).trans (if_neg hne)
    · rw [SystemStays] at hsys ⊢
      rw [hsys]
      rfl

/-- With the core not halted and no watchpoint latched, an access that fails takes the Data Abort (R545). -/
theorem Spoiled.dataAbort_eq (h : Spoiled lost touched s u) (hq : s.Quiet) : u.dataAbort = u.takeException .dataAbort := by
  obtain ⟨hhalt, hlatch, -, -⟩ := hq
  have hdbg : u.dbg = s.dbg := by rw [h.system]
  have hexc : (u.takeException .dataAbort).dbg = u.dbg := by rw [takeException_eq]
  simp only [State.dataAbort, hexc, hdbg, hhalt, hlatch, Bool.false_and, Bool.false_eq_true, if_false]

/-- Only FIQ sets the F bit (R571). -/
theorem dataAbort_fiq (f : Bool) : (f || Exc.dataAbort == .fiq) = f := Bool.or_false f

/-- The Data Abort of an instruction whose access failed (R351, R387, R545). -/
theorem Spoiled.aborts (h : Spoiled lost touched s u) (hq : s.Quiet) : Aborts (.next u.dataAbort) s lost touched := by
  rw [h.dataAbort_eq hq]
  obtain ⟨hpc, hcpsr, hspsrs, hun, hregs, hmem, hsys⟩ := h
  have hbase : u.vectorBase = s.vectorBase := by rw [State.vectorBase, hsys, State.vectorBase]
  have hget (q : PhysReg) : (u.takeException .dataAbort).getPhys q = if q = .r14_abt then s.pc + 8 else u.getPhys q := by
    rw [State.getPhys_takeException, ← hpc]
    rfl
  refine ⟨_, rfl, ?_, ?_, ?_, (hget _).trans (if_pos rfl), fun q hne hq => ?_, fun q hq => ?_, ?_, ?_⟩
  · rw [State.takeException_pc, hbase]
    rfl
  · rw [State.takeException_cpsr, hcpsr, dataAbort_fiq]
    rfl
  · rw [takeException_eq, ← hspsrs, ← hcpsr]
    rfl
  · rw [hget, if_neg hne, hregs q hq]
  · rw [← hmem q hq, takeException_eq]
    rfl
  · rw [State.takeException_unrecoverable, hun]
  · rw [takeException_eq]
    rw [SystemStays] at hsys ⊢
    rw [hsys]

/-- An abort that loses nothing is the entry of the exception (R570, R571). -/
theorem Aborts.enters {r : Result} (h : Aborts r s [] []) : Enters r s .dataAbort := by
  obtain ⟨t, hr, hpc, hcpsr, hspsrs, hlink, hregs, hmem, hun, hsys⟩ := h
  refine ⟨t, hr, hpc, ?_, congrArg (·.abt) hspsrs, fun e he => ?_, ⟨fun x hx => ?_, fun q hq => ?_⟩,
    ⟨nofun, fun q _ => hmem q nofun⟩, hun, hsys⟩
  · rw [hcpsr, dataAbort_fiq]
    rfl
  · cases e with
    | abt => exact absurd rfl he
    | _ => simp only [State.spsr, hspsrs]
  · obtain rfl := List.mem_singleton.mp hx
    exact hlink
  · exact hregs q (fun e => hq (List.mem_singleton.mpr e)) List.not_mem_nil

end

/-! ### Reads that the AHB answers with an error (R142) -/

section
variable {s : State} {size : Nat} {priv swap : Bool} {a : Word}

/-- A misaligned access with A = 1 does nothing but abort (R118). -/
theorem loadData_fault (h : s.alignFault size a = true) : loadData size priv swap a s = .abort s := by
  rw [loadData, if_pos h]

/-- An error of the AHB ends the access after the drain of the buffer (R123, R142). -/
theorem loadData_error (hq : s.Quiet) (hf : s.alignFault size a = false) (hb : s.BusError (readDir swap) size priv a) :
    ∃ t, loadData size priv swap a s = .abort t ∧ Reads s t := by
  obtain ⟨-, -, hw, hc⟩ := hq
  obtain ⟨hp, -, he⟩ := hb
  rw [busKind_readDir] at he
  exact ⟨_, by rw [loadData_eq_readData priv swap hf hw, readData_ahb hc hp, if_pos he], reads_drainAhbAll hc⟩

theorem alignFault_of_aligned (h : misaligned size a = false) : s.alignFault size a = false := by
  rw [State.alignFault, h, Bool.and_false]

/-- A halfword is refused only with A = 0 (R118, U3). -/
theorem halfRefused_of_fault {n : Nat} {x : Word} (h : s.alignFault n x = true) : s.halfRefused size a = false := by
  rw [State.alignFault, Bool.and_eq_true] at h
  rw [State.halfRefused, h.1]
  rfl

theorem halfRefused_of_fits (h : misaligned size a = false) : s.halfRefused size a = false :=
  halfRefused_of_aligned fun hs => hs ▸ h

end

/-! ### Stores before a write that fails (R142, R146) -/

/-- The pending AHB stores that will be answered with an error cover no places but those in `T`. -/
def State.CleanBut (s : State) (T : Place → Prop) : Prop :=
  ∀ e ∈ s.ahbWB, s.ahbError .buffered e.addr e.size e.priv = true → ∀ o, e.addr ≤ o → o < e.addr + e.size → T (.ahb, o)

theorem State.CleanAhb.cleanBut {s : State} (h : s.CleanAhb) (T : Place → Prop) : s.CleanBut T := by
  intro e he herr
  rw [h e he] at herr
  cases herr

/-- `t` is `s` after writes on the AHB to places in `T`: every other byte is as before, and so are the errors to come. -/
structure StaysBut (T : Place → Prop) (s t : State) : Prop where
  frame : AhbFrame s t
  seen : ∀ q, ¬ T q → t.seen q = s.seen q
  clean : t.CleanBut T

theorem StaysBut.refl {T : Place → Prop} {s : State} (h : s.CleanBut T) : StaysBut T s s := ⟨rfl, fun _ _ => rfl, h⟩

theorem StaysBut.trans {T : Place → Prop} {s t u : State} (h : StaysBut T s t) (k : StaysBut T t u) : StaysBut T s u :=
  ⟨h.frame.trans k.frame, fun q hq => (k.seen q hq).trans (h.seen q hq), k.clean⟩

/-- Fewer pending stores are as clean. -/
theorem State.CleanBut.shrinks {T : Place → Prop} {s t : State} (h : s.CleanBut T) (hf : AhbFrame s t) (hs : Shrinks s t) :
    t.CleanBut T := by
  intro e he herr
  rw [hf.mem.ahbError] at herr
  exact h e (hs.ahb.subset he) herr

theorem get?_mixBytes_of_out (bs : List Byte) : ∀ (m : Memory) (n a x : Nat), ¬ (a ≤ x ∧ x < a + bs.length) →
    (m.mixBytes n a bs).get? x = m.get? x := by
  induction bs with
  | nil => exact fun _ _ _ _ _ => rfl
  | cons b r ih =>
    intro m n a x hx
    rw [List.length_cons] at hx
    rw [Memory.mixBytes, ih _ _ _ _ (by omega)]
    split
    · rw [Memory.get?_set, if_neg (by omega)]
    · rfl

/-- A write on the AHB, whatever its answer, changes no byte of AHB memory but its own. -/
theorem get?_putAhb_of_out {s : State} {k : AhbKind} {a n : Nat} {v : Word} {priv : Bool} {o : Nat}
    (h : ¬ (a ≤ o ∧ o < a + n)) : (s.putAhb k a n v priv).ahb.get? o = s.ahb.get? o := by
  rw [State.putAhb]
  split
  · split
    · exact get?_mixBytes_of_out _ _ _ _ _ (by rwa [wordBytes_length])
    · rw [Memory.get?_setBytes, wordBytes_length, if_neg h]
  · rw [Memory.get?_setBytes, wordBytes_length, if_neg h]

/-- Nor does it change any other byte that loads see. -/
theorem seen_putAhb_of_out {s : State} {k : AhbKind} {a n : Nat} {v : Word} {priv : Bool} {q : Place}
    (hq : ¬ (q.1 = .ahb ∧ a ≤ q.2 ∧ q.2 < a + n)) : (s.putAhb k a n v priv).seen q = s.seen q := by
  have hf : s.putAhb k a n v priv = _ := ahbFrame_putAhb s k a n v priv
  obtain ⟨p, o⟩ := q
  cases p with
  | tcm m => rw [hf]; rfl
  | ahb =>
    have ho : ¬ (a ≤ o ∧ o < a + n) := fun h => hq ⟨rfl, h⟩
    simp only [State.seen, State.ahbByte, putAhb_ahbWB, get?_putAhb_of_out ho]

/-- A pending store supplies its own bytes alone. -/
theorem ahbByte?_of_out {e : AhbEntry} {o : Nat} (h : ¬ (e.addr ≤ o ∧ o < e.addr + e.size)) : e.byte? o = none := if_neg h

/-- A drain of a buffer that holds data is the write of its oldest word (R122). -/
theorem drainAhb_cons {s : State} {e : AhbEntry} {r : List AhbEntry} (h : s.ahbWB = e :: r) :
    s.drainAhb = State.putAhb { s with ahbWB := r } .buffered e.addr e.size e.data e.priv := by
  rw [State.drainAhb, h]

/-- The drain of all pending stores drains the oldest one, and then the others (R123). -/
theorem drainAhbAll_cons {s : State} {e : AhbEntry} {r : List AhbEntry} (h : s.ahbWB = e :: r) :
    s.drainAhbAll = s.drainAhb.drainAhbAll := by
  have hrest : s.drainAhb.ahbWB = r := by rw [drainAhb_ahbWB, h]; rfl
  have hput : State.putAhb { s with ahbWB := [] } .buffered e.addr e.size e.data e.priv = { s.drainAhb with ahbWB := [] } := by
    rw [drainAhb_cons h, State.putAhb, State.putAhb]
    split
    next herr => rw [if_pos (show State.ahbError { s with ahbWB := r } _ _ _ _ = true from herr)]; rfl
    next herr => rw [if_neg (show ¬ State.ahbError { s with ahbWB := r } _ _ _ _ = true from herr)]
  rw [State.drainAhbAll, State.drainAhbAll, hrest, h, List.foldl_cons, hput]

section
variable {T : Place → Prop} {s : State}

/-- A drain of the oldest pending store, whatever its answer (R122, R146). -/
theorem staysBut_drainAhb (h : s.CleanBut T) : StaysBut T s s.drainAhb := by
  refine ⟨ahbFrame_drainAhb s, fun ⟨p, o⟩ hq => ?_, h.shrinks (ahbFrame_drainAhb s) (shrinks_drainAhb s)⟩
  cases hw : s.ahbWB with
  | nil => rw [State.drainAhb, hw]
  | cons e r =>
    cases p with
    | tcm m =>
      have hf : s.drainAhb = _ := ahbFrame_drainAhb s
      rw [hf]
      rfl
    | ahb =>
      have hbyte : s.drainAhb.ahbByte o = (e.byte? o).getD (s.ahbByte o) := by
        rw [drainAhb_cons hw, State.ahbByte, State.ahbByte]
        cases herr : s.ahbError .buffered e.addr e.size e.priv with
        | false =>
          have herr' : State.ahbError { s with ahbWB := r } .buffered e.addr e.size e.priv = false := herr
          rw [State.putAhb_ok _ _ _ _ _ _ herr', Memory.get?_ahbEntry]
          cases e.byte? o <;> rfl
        | true =>
          have hout : ¬ (e.addr ≤ o ∧ o < e.addr + e.size) := fun ho =>
            hq (h e (hw ▸ List.mem_cons_self ..) herr o ho.1 ho.2)
          rw [get?_putAhb_of_out hout, ahbByte?_of_out hout]
          rfl
      simp only [State.seen, drainAhb_ahbWB, hw, hbyte, List.tail_cons, ahbBufferByte]
      cases ahbBufferByte r o <;> cases e.byte? o <;> rfl

/-- The drain of all pending stores, whatever their answers (R123, R146). -/
theorem staysBut_drainAhbAll (h : s.CleanBut T) : StaysBut T s s.drainAhbAll := by
  induction hw : s.ahbWB generalizing s with
  | nil =>
    have hnone : s.drainAhbAll = s := by
      rw [State.drainAhbAll, hw]
      show { s with ahbWB := [] } = s
      rw [← hw]
    rw [hnone]
    exact .refl h
  | cons e r ih =>
    have hfirst := staysBut_drainAhb h
    rw [drainAhbAll_cons hw]
    exact hfirst.trans (ih hfirst.clean (by rw [drainAhb_ahbWB, hw]; rfl))

theorem staysBut_waitAhb (first : Bool) (n : Nat) : ∀ {s : State}, s.CleanBut T → StaysBut T s (s.waitAhb first n) := by
  induction n with
  | zero => exact fun h => .refl h
  | succ n ih =>
    intro s h
    rw [State.waitAhb]
    split
    · exact .refl h
    · exact (staysBut_drainAhb h).trans (ih (staysBut_drainAhb h).clean)

/-- A store that enters the AHB write buffer with its bytes in `T` (R121). -/
theorem staysBut_pushAhb (h : s.CleanBut T) {e : AhbEntry} (he : ∀ o, e.addr ≤ o → o < e.addr + e.size → T (.ahb, o)) :
    StaysBut T s (s.pushAhb e) := by
  have hwait := staysBut_waitAhb e.first s.ahbWB.length h
  refine ⟨ahbFrame_pushAhb s e, fun q hq => ?_, fun x hx herr => ?_⟩
  · rw [State.pushAhb, State.seen_append, hwait.seen q hq]
    obtain ⟨p, o⟩ := q
    split
    next hp =>
      have hout : ¬ (e.addr ≤ o ∧ o < e.addr + e.size) := fun ho => hq (by rw [show p = .ahb from hp]; exact he o ho.1 ho.2)
      rw [ahbByte?_of_out hout]
      rfl
    next => rfl
  · rcases List.mem_append.mp hx with hx | hx
    · exact hwait.clean x hx herr
    · exact List.mem_singleton.mp hx ▸ he

/-- A write on the AHB to places in `T`: it aborts if it is answered with an error that the core sees, else it goes on (R142, R146). -/
theorem writeData_staysBut {size : Nat} {priv swap : Bool} {a : Word} (opened : Bool) (v : Word) (h : s.CleanBut T)
    (hp : s.dataPort a = .ahb) (hT : ∀ q ∈ s.places size a, T q) :
    ∃ t, StaysBut T s t ∧ (s.BusError (writeDir swap) size priv a → writeData size priv opened swap a v s = .abort t) ∧
      (¬ s.BusError (writeDir swap) size priv a → ∃ b, writeData size priv opened swap a v s = .ok b t) := by
  have hfirst : s.firstPlace size a = lane s.ctl.b size (forced size a) := by
    simp only [State.firstPlace, hp]
  have hplaces (o : Nat) (h1 : s.firstPlace size a ≤ o) (h2 : o < s.firstPlace size a + size) : T (.ahb, o) :=
    hT _ (mem_places.mpr ⟨hp.symm, h1, h2⟩)
  cases hb : s.buffered a swap with
  | true =>
    have hkind := writeKind_of_buffered hb
    refine ⟨_, staysBut_pushAhb h (e := ⟨s.firstPlace size a, size, ofBytes (wordBytes v size), !opened, priv⟩) hplaces,
      fun hbus => ?_, fun _ => ⟨true, ?_⟩⟩
    · obtain ⟨-, hne, -⟩ := hbus
      rw [busKind_writeDir] at hne
      exact absurd hkind hne
    · simp only [writeData, hp, hb, if_true, ← hfirst]
  | false =>
    have hdrain := staysBut_drainAhbAll h
    let k := s.writeKind a swap
    let t := s.drainAhbAll.putAhb k (s.firstPlace size a) size (ofBytes (wordBytes v size)) priv
    have hframe := ahbFrame_putAhb s.drainAhbAll k (s.firstPlace size a) size (ofBytes (wordBytes v size)) priv
    have hstays : StaysBut T s.drainAhbAll t := by
      refine ⟨hframe, fun q hq => seen_putAhb_of_out fun ⟨h1, h2, h3⟩ => hq ?_, hdrain.clean.shrinks hframe (shrinks_putAhb ..)⟩
      have hqT := hplaces q.2 h2 h3
      rwa [← h1] at hqT
    have hwrite : writeData size priv opened swap a v s =
        if s.ahbError k (s.firstPlace size a) size priv then .abort t else .ok false t := by
      simp only [writeData, hp, hb, Bool.false_eq_true, if_false, ← hfirst, hdrain.frame.mem.ahbError]
      rfl
    have hne : k ≠ .buffered := by
      cases swap <;> simp [k, State.writeKind, hb]
    have hbus : s.BusError (writeDir swap) size priv a ↔ s.ahbError k (s.firstPlace size a) size priv = true := by
      rw [State.BusError, busKind_writeDir]
      exact ⟨fun ⟨_, _, he⟩ => he, fun he => ⟨hp, hne, he⟩⟩
    exact ⟨t, hdrain.trans hstays, fun he => by rw [hwrite, if_pos (hbus.mp he)],
      fun he => ⟨false, by rw [hwrite, if_neg (mt hbus.mpr he)]⟩⟩

/-- A store that the AHB answers with an error changes no byte but its own (R351). -/
theorem storeData_error {size : Nat} {priv swap : Bool} {a : Word} (opened : Bool) (v : Word) (hq : s.Quiet)
    (hf : s.alignFault size a = false) (hb : s.BusError (writeDir swap) size priv a) :
    ∃ t, storeData size priv opened swap a v s = .abort t ∧ Spoiled [] [(a, size)] s t := by
  obtain ⟨-, -, hw, hc, -⟩ := hq
  obtain ⟨t, hstays, habort, -⟩ := writeData_staysBut (T := (· ∈ s.places size a)) opened v (hc.cleanBut _) hb.1 fun _ h => h
  exact ⟨t, by rw [storeData_eq_writeData _ _ _ _ hf hw, habort hb],
    hstays.frame.mem.spoiled (fun q hq => hstays.seen q (hq _ (List.mem_singleton_self _))) []⟩

/-- A misaligned store with A = 1 does nothing but abort (R118). -/
theorem storeData_fault {size : Nat} {priv swap : Bool} {a : Word} (opened : Bool) (v : Word) (h : s.alignFault size a = true) :
    storeData size priv opened swap a v s = .abort s := by
  rw [storeData, if_pos h]

end

/-! ### Single loads and stores (R350) -/

/-- The Data Abort of the access `x`, by its alignment with A = 1 or by the AHB (R118, R142, R350, R351). -/
def AccessAborts (r : Result) (s : State) (x : Access) : Prop :=
  (s.alignFault x.size x.addr = true → Enters r s .dataAbort) ∧
    (misaligned x.size x.addr = false → s.BusError x.kind x.size x.priv x.addr →
      Aborts r s [] (if x.kind = .write then [(x.addr, x.size)] else []))

section
variable {s : State} (hq : s.Quiet)
include hq

theorem enters_dataAbort : Enters (.next s.dataAbort) s .dataAbort :=
  (((Reads.refl s).spoiled []).aborts hq).enters

/-- A single load whose access fails (R350, R351). -/
theorem loadSingle_aborts {k : LoadKind} {priv : Bool} {rn rd : Reg} {x : Address} (hrd : rd = 15 → k = .word) :
    AccessAborts (loadSingle k priv rn rd x s) s ⟨.read, k.size, priv, x.addr⟩ := by
  refine ⟨fun hf => ?_, fun hal hb => ?_⟩
  · have hA : s.ctl.a = true := (Bool.and_eq_true_iff.mp hf).1
    have hload : loadSingle k priv rn rd x s = .next s.dataAbort := by
      simp only [loadSingle, halfRefused_of_fault hf, loadData_fault hf, hA, Acc.finish, Bool.not_true, Bool.and_false,
        Bool.false_and, Bool.false_eq_true, if_false]
    rw [hload]
    exact enters_dataAbort hq
  · obtain ⟨t, ht, hr⟩ := loadData_error (swap := false) hq (alignFault_of_aligned hal) hb
    have hpc : (rd == 15 && !s.ctl.a && misaligned 4 x.addr) = false := by
      by_cases h15 : rd = 15
      · obtain rfl := hrd h15
        rw [show misaligned 4 x.addr = false from hal, Bool.and_false]
      · rw [beq_false_of_ne h15, Bool.false_and, Bool.false_and]
    have hload : loadSingle k priv rn rd x s = .next t.dataAbort := by
      simp only [loadSingle, halfRefused_of_fits hal, hpc, ht, Acc.finish, Bool.false_eq_true, if_false]
    rw [hload]
    exact (hr.spoiled []).aborts hq

/-- A single store whose access fails (R350, R351). -/
theorem storeSingle_aborts {size : Nat} {priv : Bool} {rn : Reg} {x : Address} {v : Word} :
    AccessAborts (storeSingle size priv rn x v s) s ⟨.write, size, priv, x.addr⟩ := by
  refine ⟨fun hf => ?_, fun hal hb => ?_⟩
  · have hstore : storeSingle size priv rn x v s = .next s.dataAbort := by
      simp only [storeSingle, halfRefused_of_fault hf, storeData_fault false v hf, Acc.finish, Bool.false_eq_true, if_false]
    rw [hstore]
    exact enters_dataAbort hq
  · obtain ⟨t, ht, hs⟩ := storeData_error (swap := false) false v hq (alignFault_of_aligned hal) hb
    have hstore : storeSingle size priv rn x v s = .next t.dataAbort := by
      simp only [storeSingle, halfRefused_of_fits hal, ht, Acc.finish, Bool.false_eq_true, if_false]
    rw [hstore]
    exact hs.aborts hq

end

end Sys2Proof.Machine

/-! PROOF. The loads and stores with User access (R351, R360 to R364, R592): the statement O31. -/

namespace Sys2Proof.Machine

section
variable {i j : Instr} {c : Cond} {s : State} {rn rd : Reg} {x y : Address}
  (hc : s.cpsr.passes c = true) (hcheck : i.check = none) (hy : j.check = none → y.Spares rn rd) (hxy : y.addr = x.addr)
include hc hcheck hy hxy

/-- A load with User access, and the load with the access of the mode at the same address. -/
theorem userLoad_clauses {k : LoadKind} {v : Word}
    (hi : exec i s = conditional c s (guarded i.check (loadSingle k false rn rd x s)))
    (hj : exec j s = conditional c s (guarded j.check (loadSingle k s.priv rn rd y s))) (hrd : rd ≠ 15) (hx : x.Spares rn rd)
    (hv : k.extend x.addr (s.valueAt k.size x.addr) = v) :
    (s.LoadReady k.size false x.addr → Loads i s rn rd x v) ∧
    (s.Quiet → s.priv = true → x.addr.toNat % k.size = 0 → s.BusError .read k.size false x.addr →
      Aborts (exec i s) s [] [] ∧
      (rd ≠ 15 → j.check = none → s.Answers .read k.size true x.addr → y.addr = x.addr ∧ Loads j s rn rd y v)) := by
  refine ⟨fun hready => hv ▸ loads_of_exec hi hc hcheck hrd hx hready, fun hq hp ha hb => ⟨?_, fun _ hjc hans => ⟨hxy, ?_⟩⟩⟩
  · rw [exec_of_check hi hc hcheck]
    obtain ⟨-, herror⟩ := loadSingle_aborts hq (k := k) (priv := false) (rn := rn) (x := x) (fun h => absurd h hrd)
    exact herror (misaligned_of_zero ha) hb
  · obtain ⟨-, -, -, hclean⟩ := hq
    rw [← hv, ← hxy]
    refine loads_of_exec hj hc hjc hrd (hy hjc) ⟨hclean, ?_, fun hk => ?_⟩
    · rw [hp, hxy]
      exact hans
    · rw [hxy, ← hk]
      exact misaligned_of_zero ha

/-- A store with User access, and the store with the access of the mode at the same address. -/
theorem userStore_clauses {size : Nat} {v : Word}
    (hi : exec i s = conditional c s (guarded i.check (storeSingle size false rn x v s)))
    (hj : exec j s = conditional c s (guarded j.check (storeSingle size s.priv rn y v s))) (hx : x.FitsBase rn) :
    (s.StoreReady size false x.addr → Stores i s rn x size v) ∧
    (s.Quiet → s.priv = true → x.addr.toNat % size = 0 → s.BusError .write size false x.addr →
      Aborts (exec i s) s [] [(x.addr, size)] ∧
      (rd ≠ 15 → j.check = none → s.Answers .write size true x.addr → y.addr = x.addr ∧ Stores j s rn y size v)) := by
  refine ⟨fun hready => stores_of_exec hi hc hcheck hx hready, fun hq hp ha hb => ⟨?_, fun _ hjc hans => ⟨hxy, ?_⟩⟩⟩
  · rw [exec_of_check hi hc hcheck]
    obtain ⟨-, herror⟩ := storeSingle_aborts hq (size := size) (priv := false) (rn := rn) (x := x) (v := v)
    exact herror (misaligned_of_zero ha) hb
  · obtain ⟨-, -, -, hclean⟩ := hq
    refine stores_of_exec hj hc hjc (hy hjc).fitsBase ⟨hclean, ?_, fun hk => ?_⟩
    · rw [hp, hxy]
      exact hans
    · rw [hxy, ← hk]
      exact misaligned_of_zero ha

end

/-- Settles O31: each form is a single load or store at the base, and so is the form that it is set against. -/
theorem userTransfersAccessAsUser : Obligations.UserTransfersAccessAsUser := by
  unfold Obligations.UserTransfersAccessAsUser
  intro c u rn rd rm off sa sh s hc a b a' b' loads stores
  have stored (h : rd ≠ 15) : s.stored rd = s.reg rd := stored_of_ne h
  refine ⟨rfl, rfl, rfl, fun h => ?_, fun h => ?_, fun h => ?_, fun h => ?_, fun h => ?_, fun h => ?_, fun h => ?_, fun h => ?_⟩
  · exact userLoad_clauses (k := .word) hc h (by exact mode2Imm_spares) rfl rfl rfl (mode2Imm_rd h) (mode2Imm_spares h) rfl
  · exact userLoad_clauses (k := .word) hc h (by exact mode2Reg_spares) rfl rfl rfl (mode2Reg_rd h) (mode2Reg_spares h) rfl
  · exact userLoad_clauses (k := .byte) hc h (by exact mode2Imm_spares) rfl rfl rfl (mode2Imm_rd h) (mode2Imm_spares h)
      (byte_extend_eq s a.addr)
  · exact userLoad_clauses (k := .byte) hc h (by exact mode2Reg_spares) rfl rfl rfl (mode2Reg_rd h) (mode2Reg_spares h)
      (byte_extend_eq s b.addr)
  · exact stored (mode2Imm_rd h) ▸ userStore_clauses hc h (by exact mode2Imm_spares) rfl rfl rfl (mode2Imm_spares h).fitsBase
  · exact stored (mode2Reg_rd h) ▸ userStore_clauses hc h (by exact mode2Reg_spares) rfl rfl rfl (mode2Reg_spares h).fitsBase
  · exact userStore_clauses hc h (by exact mode2Imm_spares) rfl rfl rfl (mode2Imm_spares h).fitsBase
  · exact userStore_clauses hc h (by exact mode2Reg_spares) rfl rfl rfl (mode2Reg_spares h).fitsBase

end Sys2Proof.Machine

/-! PROOF. Transfers of several words and swaps that abort (R118, R142, R351, R387, R396, R504); the statement O39. -/

namespace Sys2Proof.Machine

/-! ### Words before and at one that fails -/

/-- Word addresses keep the alignment (R118). -/
theorem word_alignFault {s : State} {a : Word} (h : s.alignFault 4 a = false) (j : Nat) :
    s.alignFault 4 (a + BitVec.ofNat 32 (4 * j)) = false := by
  have hmod : (a + BitVec.ofNat 32 (4 * j)).toNat % 4 = a.toNat % 4 := by
    rw [BitVec.toNat_add, BitVec.toNat_ofNat]
    omega
  rw [← h, State.alignFault, State.alignFault, misaligned, misaligned, hmod]

theorem MemFrame.busError {s t : State} (h : MemFrame s t) {d : Dir} {size : Nat} {priv : Bool} {a : Word} :
    t.BusError d size priv a ↔ s.BusError d size priv a := by
  rw [h]
  exact Iff.rfl

theorem Reads.quiet {s t : State} (h : Reads s t) (hq : s.Quiet) : t.Quiet := by
  obtain ⟨hhalt, hlatch, hw, hc⟩ := hq
  have hdbg : t.dbg = s.dbg := by rw [h.frame]
  exact ⟨hdbg ▸ hhalt, hdbg ▸ hlatch, h.frame.watched.trans hw, h.clean hc⟩

section
variable {priv : Bool}

/-- Words of which one is answered with an error that the core sees: the load aborts there (R142, R387). -/
theorem loadWords_error (n : Nat) : ∀ {a : Word} {s : State}, s.inside = [] → s.Quiet → s.alignFault 4 a = false →
    (∀ j < n, s.dataPort (a + BitVec.ofNat 32 (4 * j)) = .ahb) →
    (∃ j < n, s.BusError .read 4 priv (a + BitVec.ofNat 32 (4 * j))) →
    ∃ t, loadWords priv n a s = .abort t ∧ Reads s t := by
  induction n with
  | zero => exact fun _ _ _ _ ⟨j, hj, _⟩ => absurd hj (Nat.not_lt_zero j)
  | succ n ih =>
    intro a s hin hq hf hport hbad
    by_cases hb : s.BusError .read 4 priv a
    · obtain ⟨t, ht, hr⟩ := loadData_error (swap := false) hq hf hb
      exact ⟨t, by simp only [loadWords, pause_none _ _ hin, ht, Acc.bind], hr⟩
    · have hp : s.dataPort a = .ahb := word_zero a ▸ hport 0 (by omega)
      have ⟨_, _, hw, hc⟩ := hq
      have hans : s.Answers .read 4 priv a := by
        refine ⟨hf, hw, ?_⟩
        rw [hp]
        exact eq_false_of_ne_true fun he => hb ⟨hp, nofun, he⟩
      obtain ⟨t, ht, hr⟩ := loadData_completes (swap := false) hc hans
      have hrest : ∃ j < n, t.BusError .read 4 priv (a + 4 + BitVec.ofNat 32 (4 * j)) := by
        obtain ⟨j, hj, hbj⟩ := hbad
        cases j with
        | zero => exact absurd (word_zero a ▸ hbj) hb
        | succ j => exact ⟨j, by omega, by rwa [word_succ, hr.frame.busError]⟩
      obtain ⟨u, hu, hru⟩ := ih (by rw [hr.frame.inside, hin]) (hr.quiet hq)
        (by rw [hr.frame.alignFault]; exact word_alignFault hf 1)
        (fun j hj => by rw [word_succ, hr.frame.dataPort]; exact hport (j + 1) (by omega)) hrest
      exact ⟨u, by simp only [loadWords, pause_none _ _ hin, ht, hu, Acc.bind], hr.trans hru⟩

/-- Words of which one is answered with an error that the core sees: the store aborts there, and the other words touch no byte but
their own (R142, R387). -/
theorem storeWords_error {T : Place → Prop} (vs : List Word) : ∀ {a : Word} {s : State} {opened : Bool}, s.inside = [] →
    s.watched = false → s.CleanBut T → s.alignFault 4 a = false →
    (∀ j < vs.length, s.dataPort (a + BitVec.ofNat 32 (4 * j)) = .ahb) →
    (∀ j < vs.length, ∀ q ∈ s.places 4 (a + BitVec.ofNat 32 (4 * j)), T q) →
    (∃ j < vs.length, s.BusError .write 4 priv (a + BitVec.ofNat 32 (4 * j))) →
    ∃ t, storeWords priv opened vs a s = .abort t ∧ StaysBut T s t := by
  induction vs with
  | nil => exact fun _ _ _ _ _ _ ⟨j, hj, _⟩ => absurd hj (Nat.not_lt_zero j)
  | cons v vs ih =>
    intro a s opened hin hw hT hf hport hplaces hbad
    rw [List.length_cons] at hport hplaces hbad
    have hp : s.dataPort a = .ahb := word_zero a ▸ hport 0 (by omega)
    have hstore := storeData_eq_writeData priv opened false v hf hw
    obtain ⟨t, hstays, herror, hok⟩ := writeData_staysBut (priv := priv) (swap := false) opened v hT hp
      (word_zero a ▸ hplaces 0 (by omega))
    by_cases hb : s.BusError .write 4 priv a
    · exact ⟨t, by simp only [storeWords, pause_none _ _ hin, hstore, herror hb, Acc.bind], hstays⟩
    · obtain ⟨b, hb'⟩ := hok hb
      have hm := hstays.frame.mem
      have hrest : ∃ j < vs.length, t.BusError .write 4 priv (a + 4 + BitVec.ofNat 32 (4 * j)) := by
        obtain ⟨j, hj, hbj⟩ := hbad
        cases j with
        | zero => exact absurd (word_zero a ▸ hbj) hb
        | succ j => exact ⟨j, by omega, by rwa [word_succ, hm.busError]⟩
      obtain ⟨u, hu, hsu⟩ := ih (opened := b) (by rw [hm.inside, hin]) (hm.watched.trans hw) hstays.clean
        (by rw [hm.alignFault]; exact word_alignFault hf 1)
        (fun j hj => by rw [word_succ, hm.dataPort]; exact hport (j + 1) (by omega))
        (fun j hj => by rw [word_succ, hm.places]; exact hplaces (j + 1) (by omega)) hrest
      exact ⟨u, by simp only [storeWords, pause_none _ _ hin, hstore, hb', hu, Acc.bind], hstays.trans hsu⟩

/-- The first word of a misaligned transfer with A = 1 aborts (R118). -/
theorem loadWords_fault {n : Nat} {a : Word} {s : State} (hn : n ≠ 0) (hin : s.inside = []) (hf : s.alignFault 4 a = true) :
    loadWords priv n a s = .abort s := by
  obtain ⟨m, rfl⟩ := Nat.exists_eq_succ_of_ne_zero hn
  simp only [loadWords, pause_none _ _ hin, loadData_fault hf, Acc.bind]

theorem storeWords_fault {vs : List Word} {a : Word} {s : State} {opened : Bool} (hn : vs ≠ []) (hin : s.inside = [])
    (hf : s.alignFault 4 a = true) : storeWords priv opened vs a s = .abort s := by
  obtain ⟨v, r, rfl⟩ := List.exists_cons_of_ne_nil hn
  simp only [storeWords, pause_none _ _ hin, storeData_fault opened v hf, Acc.bind]

end

/-! ### The transfers of several words (R351, R387) -/

/-- The Data Abort of the transfer `x`, by its alignment with A = 1 or by the AHB (R118, R142, R351, R387). -/
def TransferAborts (r : Result) (s : State) (x : Transfer) : Prop :=
  (s.inside = [] → s.alignFault x.align x.addr = true → Aborts r s x.lost []) ∧
    (s.TransferFails x → Aborts r s x.lost
      (if x.kind = .write then (List.range x.count).map fun j => (x.word j, 4) else []))

/-- The places of a transfer. -/
def Transfer.Touches (x : Transfer) (s : State) (q : Place) : Prop := ∃ j < x.count, q ∈ s.places 4 (x.word j)

/-- What stores on the AHB to the places of a transfer leave. -/
theorem StaysBut.spoiled {x : Transfer} {s t : State} (h : StaysBut (x.Touches s) s t) :
    Spoiled [] ((List.range x.count).map fun j => (x.word j, 4)) s t :=
  h.frame.mem.spoiled (fun q hout => h.seen q fun ⟨j, hj, hin⟩ =>
    hout (x.word j, 4) (List.mem_map.mpr ⟨j, List.mem_range.mpr hj, rfl⟩) hin) []

section
variable {s : State} (hq : s.Quiet)
include hq

/-- The registers that an aborted load of several words leaves unknown (R351, R387, U9). -/
theorem abortedLoad_aborts {touched : List (Word × Nat)} {place : Reg → PhysReg} {rn : Reg} {rs : List Reg} {t : State}
    (h : Spoiled (s.lostIn place rn rs) touched s t) :
    Aborts (.next (abortedLoad (physReg? s.cpsr.m rn) place rs t)) s (s.lostIn place rn rs) touched := by
  have hlost : (((rs.filter fun r => r != 15).map place).filter fun p => some p != physReg? s.cpsr.m rn) =
      s.lostIn place rn rs := by
    refine List.filter_congr fun p _ => ?_
    rw [physReg?]
    split
    next h15 => rw [h15]; rfl
    next h15 => rw [beq_false_of_ne h15]; rfl
  rw [abortedLoad, hlost]
  exact (h.freeRegs _ fun _ hp => hp).aborts hq

/-- The transfer of a list is from its lowest address, a word for each register. -/
def blockTransfer (d : Dir) (start : Word) (list : BitVec 16) (lost : List PhysReg) : Transfer :=
  { kind := d, addr := start, count := (listed list).length, align := 4, lost := lost }

/-- A load multiple whose access fails (R387, R504). -/
theorem loadMultiple_aborts {place : Reg → PhysReg} {hazard : Bool} {rn : Reg} {list : BitVec 16} {start : Word} {wb : Option Word}
    {writePc : Word → State → Result} (hlist : listed list ≠ []) :
    TransferAborts (loadMultiple place hazard rn list start wb writePc s) s
      (blockTransfer .read start list (s.lostIn place rn (listed list))) := by
  have hexec {t : State} (h : loadWords s.priv (listed list).length start s = .abort t) :
      loadMultiple place hazard rn list start wb writePc s =
        .next (abortedLoad (physReg? s.cpsr.m rn) place (listed list) t) := by
    simp only [loadMultiple, h, Acc.finish]
  refine ⟨fun hin hf => ?_, fun ⟨hin, hf, _, hport, hbad⟩ => ?_⟩
  · rw [hexec (loadWords_fault (List.length_eq_zero_iff.not.mpr hlist) hin hf)]
    exact abortedLoad_aborts hq ((Reads.refl s).spoiled _)
  · obtain ⟨t, ht, hr⟩ := loadWords_error (listed list).length hin hq hf hport hbad
    rw [hexec ht]
    exact abortedLoad_aborts hq (hr.spoiled _)

/-- A store of several words that fails (R387, R504). -/
theorem storeWords_fails {x : Transfer} {vs : List Word} (hx : s.TransferFails x) (hkind : x.kind = .write)
    (hlen : vs.length = x.count) (hal : s.alignFault 4 x.addr = false) :
    ∃ t, storeWords s.priv false vs x.addr s = .abort t ∧ Spoiled [] ((List.range x.count).map fun j => (x.word j, 4)) s t := by
  obtain ⟨hin, -, -, hport, hbad⟩ := hx
  rw [← hlen] at hport
  have ⟨_, _, hw, hc, _⟩ := hq
  obtain ⟨t, ht, hs⟩ := storeWords_error (priv := s.priv) (opened := false) vs hin hw (hc.cleanBut (x.Touches s)) hal hport
    (fun j hj q hqj => ⟨j, hlen ▸ hj, hqj⟩) (by rwa [hkind, ← hlen] at hbad)
  exact ⟨t, ht, hs.spoiled⟩

/-- A store multiple whose access fails (R387, R504). -/
theorem storeMultiple_aborts {value : Reg → Word} {draw hazard : Bool} {rn : Reg} {list : BitVec 16} {start : Word}
    {wb : Option Word} (hlist : listed list ≠ []) :
    TransferAborts (storeMultiple value draw hazard rn list start wb s) s (blockTransfer .write start list []) := by
  have hvalues : (listed list).map value ≠ [] := fun h => hlist (List.map_eq_nil_iff.mp h)
  let s0 : State := { s with free := if draw then s.free + 1 else s.free }
  have hexec {t : State} (h : storeWords s.priv false ((listed list).map value) start s0 = .abort t) :
      storeMultiple value draw hazard rn list start wb s = .next t.dataAbort := by
    simp only [storeMultiple, show storeWords s.priv false _ start { s with free := _ } = .abort t from h, Acc.finish]
  have habort {touched : List (Word × Nat)} {t : State} (h : Spoiled [] touched s0 t) : Aborts (.next t.dataAbort) s [] touched := by
    obtain ⟨hpc, hcpsr, hspsrs, hun, hregs, hmem, hsys⟩ := h
    exact Spoiled.aborts ⟨hpc, hcpsr, hspsrs, hun, hregs, hmem, hsys⟩ hq
  refine ⟨fun hin hf => ?_, fun hfails => ?_⟩
  · rw [hexec (storeWords_fault (s := s0) hvalues hin hf)]
    exact habort ((Reads.refl s0).spoiled [])
  · obtain ⟨t, ht, hs⟩ := storeWords_fails (s := s0) hq (vs := (listed list).map value) hfails rfl (List.length_map ..) hfails.2.1
    rw [hexec ht]
    exact habort hs

/-- LDRD whose access fails (R351). -/
theorem loadDouble_aborts {rn rd : Reg} {x : Address} : TransferAborts (loadDouble rn rd x s) s (s.pair .read rn rd x) := by
  refine ⟨fun _ hf => ?_, fun ⟨hin, hf, h8, hport, hbad⟩ => ?_⟩
  · obtain ⟨hA, h8⟩ := Bool.and_eq_true_iff.mp hf
    have hexec : loadDouble rn rd x s = .next (abortedLoad (physReg? s.cpsr.m rn) s.phys [rd, rd + 1] s) := by
      simp only [loadDouble, show doubleMisaligned x.addr = true from h8, hA, if_true]
      rfl
    rw [hexec]
    exact abortedLoad_aborts hq ((Reads.refl s).spoiled _)
  · have hal : x.addr.toNat % 8 = 0 := h8 rfl
    have hword : misaligned 4 x.addr = false := misaligned_of_zero (by omega)
    obtain ⟨t, ht, hr⟩ := loadWords_error 2 hin hq (alignFault_of_aligned hword) hport hbad
    have hexec : loadDouble rn rd x s = .next (abortedLoad (physReg? s.cpsr.m rn) s.phys [rd, rd + 1] t) := by
      simp only [loadDouble, doubleMisaligned, misaligned_of_zero hal, show loadWords s.priv 2 x.addr s = .abort t from ht, Acc.finish,
        Bool.false_eq_true, if_false]
      rfl
    rw [hexec]
    exact abortedLoad_aborts hq (hr.spoiled _)

/-- STRD whose access fails (R351). -/
theorem storeDouble_aborts {rn rd : Reg} {x : Address} : TransferAborts (storeDouble rn rd x s) s (s.pair .write rn rd x) := by
  refine ⟨fun _ hf => ?_, fun hfails => ?_⟩
  · obtain ⟨hA, h8⟩ := Bool.and_eq_true_iff.mp hf
    have hexec : storeDouble rn rd x s = .next s.dataAbort := by
      simp only [storeDouble, show doubleMisaligned x.addr = true from h8, hA, if_true]
    rw [hexec]
    exact ((Reads.refl s).spoiled []).aborts hq
  · have ⟨_, _, h8, _, _⟩ := hfails
    have hal : x.addr.toNat % 8 = 0 := h8 rfl
    have hword : misaligned 4 x.addr = false := misaligned_of_zero (by omega)
    obtain ⟨t, ht, hs⟩ := storeWords_fails hq (vs := [s.reg rd, s.reg (rd + 1)]) hfails rfl rfl (alignFault_of_aligned hword)
    have hexec : storeDouble rn rd x s = .next t.dataAbort := by
      simp only [storeDouble, doubleMisaligned, misaligned_of_zero hal, Acc.finish, Bool.false_eq_true, if_false,
        show storeWords s.priv false [s.reg rd, s.reg (rd + 1)] x.addr s = .abort t from ht]
    rw [hexec]
    exact hs.aborts hq

end

/-! ### Swaps (R396, R397) -/

/-- A swap whose load or store fails: the old value is in no register yet, and the base is not written (R351, R396). -/
theorem swapData_aborts {s : State} {k : LoadKind} {rn rd rm : Reg} (hq : s.Quiet) :
    (s.alignFault k.size (s.reg rn) = true → Enters (swapData k rn rd rm s) s .dataAbort) ∧
    (s.alignFault k.size (s.reg rn) = false → s.BusError .swapRead k.size s.priv (s.reg rn) →
      Enters (swapData k rn rd rm s) s .dataAbort) ∧
    (s.inside = [] → s.Answers .swapRead k.size s.priv (s.reg rn) → s.BusError .swapWrite k.size s.priv (s.reg rn) →
      Aborts (swapData k rn rd rm s) s [] [(s.reg rn, k.size)]) := by
  refine ⟨fun hf => ?_, fun hf hb => ?_, fun hin hans hb => ?_⟩
  · have hexec : swapData k rn rd rm s = .next s.dataAbort := by
      simp only [swapData, loadData_fault hf, Acc.finish]
    rw [hexec]
    exact enters_dataAbort hq
  · obtain ⟨t, ht, hr⟩ := loadData_error (swap := true) hq hf hb
    have hexec : swapData k rn rd rm s = .next t.dataAbort := by
      simp only [swapData, ht, Acc.finish]
    rw [hexec]
    exact ((hr.spoiled []).aborts hq).enters
  · have ⟨_, _, _, hc⟩ := hq
    obtain ⟨t, ht, hr⟩ := loadData_completes (swap := true) hc hans
    have hpause : t.swapPause (s.reg rn) = .ok () t := pause_none _ _ (hr.frame.inside.trans hin)
    obtain ⟨u, hu, hs⟩ := storeData_error (priv := s.priv) (swap := true) false (s.reg rm) (hr.quiet hq)
      ((hr.frame.alignFault _ _).trans hans.1) (hr.frame.busError.mpr hb)
    have hexec : swapData k rn rd rm s = .next u.dataAbort := by
      simp only [swapData, ht, hpause, hu, Acc.finish, Acc.bind]
    rw [hexec]
    exact (hr.then_spoiled hs).aborts hq

/-! ### The statement -/

/-- A list that is not empty lists a register (R184). -/
theorem listed_ne_nil {l : BitVec 16} (h : l ≠ 0) : listed l ≠ [] := by
  intro hnil
  refine h (BitVec.eq_of_getLsbD_eq fun i hi => ?_)
  have hnot : BitVec.ofNat 4 i ∉ listed l := by rw [hnil]; exact List.not_mem_nil
  rw [mem_listed, BitVec.toNat_ofNat, Nat.mod_eq_of_lt hi, Bool.not_eq_true] at hnot
  rw [hnot]
  exact BitVec.getLsbD_zero.symm

/-- A check that refuses the empty list has found a register in it. -/
theorem listed_of_check {l : List (Bool × Unpred)} {list : BitVec 16} (h : firstOf l = none)
    (hmem : (list == 0, Unpred.emptyList) ∈ l) : listed list ≠ [] :=
  listed_ne_nil (beq_eq_false_iff_ne.mp (firstOf_none h _ hmem))

/-- The list of a Thumb transfer is empty only if both its parts are. -/
theorem listed_append {hi l : BitVec 8} (h : hi ≠ 0 ∨ l ≠ 0) : listed (hi ++ l) ≠ [] := by
  refine listed_ne_nil fun h0 => ?_
  have hnat := congrArg BitVec.toNat h0
  rw [BitVec.toNat_append] at hnat
  have hzero := Nat.or_eq_zero_iff.mp hnat
  rw [Nat.shiftLeft_eq] at hzero
  rcases h with h | h
  · exact h (BitVec.eq_of_toNat_eq (by simpa using hzero.1))
  · exact h (BitVec.eq_of_toNat_eq (by simpa using hzero.2))

/-- The check of PUSH and POP finds a register in the list, or r14 or the pc beside it (R500, R501). -/
theorem listed_push {r : Bool} {hi l : BitVec 8} (h : pushCheck r l = none) (hhi : hi ≠ 0) :
    listed ((if r then hi else 0) ++ l) ≠ [] := by
  have hl := firstOf_none h (!r && l == 0, .emptyList) (by simp)
  cases r with
  | true => exact listed_append (.inl hhi)
  | false => exact listed_append (.inr (beq_eq_false_iff_ne.mp hl))

theorem AccessAborts.of_exec {i : Instr} {c : Cond} {s : State} {k : Result} {x : Access}
    (h : exec i s = conditional c s (guarded i.check k)) (hc : s.cpsr.passes c = true) (hcheck : i.check = none)
    (hk : AccessAborts k s x) : AccessAborts (exec i s) s x := by
  rwa [exec_of_check h hc hcheck]

theorem TransferAborts.of_exec {i : Instr} {c : Cond} {s : State} {k : Result} {x : Transfer}
    (h : exec i s = conditional c s (guarded i.check k)) (hc : s.cpsr.passes c = true) (hcheck : i.check = none)
    (hk : TransferAborts k s x) : TransferAborts (exec i s) s x := by
  rwa [exec_of_check h hc hcheck]

theorem TransferAborts.of_guarded {i : Instr} {s : State} {k : Result} {x : Transfer} (h : exec i s = guarded i.check k)
    (hcheck : i.check = none) (hk : TransferAborts k s x) : TransferAborts (exec i s) s x := by
  rwa [h, hcheck, guarded_none]

/-- A Thumb access is refused only where it is a misaligned word with A = 0 (R480, U1). -/
theorem thumbRefused_of_fault {s : State} {size : Nat} {a : Word} (h : s.alignFault size a = true) : s.thumbRefused size a = false := by
  rw [State.thumbRefused, (Bool.and_eq_true_iff.mp h).1]
  rfl

theorem thumbLoad_aborts {s : State} (hq : s.Quiet) {k : LoadKind} {rd : LReg} {a : Word} :
    AccessAborts (thumbLoad k rd a s) s ⟨.read, k.size, s.priv, a⟩ := by
  obtain ⟨hfault, herror⟩ := loadSingle_aborts hq (k := k) (priv := s.priv) (rn := 0) (x := plainAddress a)
    fun h => absurd h (low_ne_pc rd)
  refine ⟨fun hf => ?_, fun hal hb => ?_⟩
  · rw [thumbLoad, thumbRefused_of_fault hf]
    exact hfault hf
  · rw [thumbLoad, thumbRefused_of_aligned (bne_eq_false_iff_eq.mp hal)]
    exact herror hal hb

theorem thumbStore_aborts {s : State} (hq : s.Quiet) {size : Nat} {rd : LReg} {a : Word} :
    AccessAborts (thumbStore size rd a s) s ⟨.write, size, s.priv, a⟩ := by
  obtain ⟨hfault, herror⟩ := storeSingle_aborts hq (size := size) (priv := s.priv) (rn := 0) (x := plainAddress a)
    (v := s.reg rd.reg)
  refine ⟨fun hf => ?_, fun hal hb => ?_⟩
  · rw [thumbStore, thumbRefused_of_fault hf]
    exact hfault hf
  · rw [thumbStore, thumbRefused_of_aligned (bne_eq_false_iff_eq.mp hal)]
    exact herror hal hb

section
variable {i : Instr} {s : State} (hcheck : i.check = none) (hc : s.cpsr.passes (accessed s.cpsr.m i).1 = true) (hq : s.Quiet)
include hcheck hc hq

/-- Every single load and store. -/
theorem access_aborts {x : Access} (hx : s.access i = some x) : AccessAborts (exec i s) s x := by
  cases i
  case ldrImm | ldrReg | ldrtImm | ldrtReg =>
    obtain rfl := Option.some.inj hx
    exact .of_exec rfl hc hcheck (loadSingle_aborts hq (k := .word) fun _ => rfl)
  case ldrbImm | ldrbtImm =>
    obtain rfl := Option.some.inj hx
    exact .of_exec rfl hc hcheck (loadSingle_aborts hq (k := .byte) fun h => absurd h (mode2Imm_rd hcheck))
  case ldrbReg | ldrbtReg =>
    obtain rfl := Option.some.inj hx
    exact .of_exec rfl hc hcheck (loadSingle_aborts hq (k := .byte) fun h => absurd h (mode2Reg_rd hcheck))
  case ldrhImm =>
    obtain rfl := Option.some.inj hx
    exact .of_exec rfl hc hcheck (loadSingle_aborts hq (k := .half) fun h => absurd h (mode3Imm_rd hcheck))
  case ldrhReg =>
    obtain rfl := Option.some.inj hx
    exact .of_exec rfl hc hcheck (loadSingle_aborts hq (k := .half) fun h => absurd h (mode3Reg_rd hcheck))
  case ldrsbImm =>
    obtain rfl := Option.some.inj hx
    exact .of_exec rfl hc hcheck (loadSingle_aborts hq (k := .signedByte) fun h => absurd h (mode3Imm_rd hcheck))
  case ldrsbReg =>
    obtain rfl := Option.some.inj hx
    exact .of_exec rfl hc hcheck (loadSingle_aborts hq (k := .signedByte) fun h => absurd h (mode3Reg_rd hcheck))
  case ldrshImm =>
    obtain rfl := Option.some.inj hx
    exact .of_exec rfl hc hcheck (loadSingle_aborts hq (k := .signedHalf) fun h => absurd h (mode3Imm_rd hcheck))
  case ldrshReg =>
    obtain rfl := Option.some.inj hx
    exact .of_exec rfl hc hcheck (loadSingle_aborts hq (k := .signedHalf) fun h => absurd h (mode3Reg_rd hcheck))
  case strImm | strReg | strbImm | strbReg | strtImm | strtReg | strbtImm | strbtReg | strhImm | strhReg =>
    obtain rfl := Option.some.inj hx
    exact .of_exec rfl hc hcheck (storeSingle_aborts hq)
  case tLdrImm | tLdrReg | tLdrPc | tLdrSp =>
    obtain rfl := Option.some.inj hx
    exact thumbLoad_aborts hq (k := .word)
  case tLdrbImm | tLdrbReg =>
    obtain rfl := Option.some.inj hx
    exact thumbLoad_aborts hq (k := .byte)
  case tLdrhImm | tLdrhReg =>
    obtain rfl := Option.some.inj hx
    exact thumbLoad_aborts hq (k := .half)
  case tLdrsb =>
    obtain rfl := Option.some.inj hx
    exact thumbLoad_aborts hq (k := .signedByte)
  case tLdrsh =>
    obtain rfl := Option.some.inj hx
    exact thumbLoad_aborts hq (k := .signedHalf)
  case tStrImm | tStrReg | tStrSp | tStrbImm | tStrbReg | tStrhImm | tStrhReg =>
    obtain rfl := Option.some.inj hx
    exact thumbStore_aborts hq
  all_goals cases hx

/-- Every instruction of several words. -/
theorem transfer_aborts {x : Transfer} (hx : s.transfer i = some x) : TransferAborts (exec i s) s x := by
  have banked {y : Transfer} (h : (if (excMode s.cpsr.m).isSome then some y else none) = some x) :
      x = y ∧ ∀ k, bankedModeOnly s k = k := by
    split at h
    next hm =>
      obtain ⟨e, he⟩ := Option.isSome_iff_exists.mp hm
      exact ⟨(Option.some.inj h).symm, fun k => bankedModeOnly_some k he⟩
    next => cases h
  cases i
  case ldrdImm | ldrdReg =>
    obtain rfl := Option.some.inj hx
    exact .of_exec rfl hc hcheck (loadDouble_aborts hq)
  case strdImm | strdReg =>
    obtain rfl := Option.some.inj hx
    exact .of_exec rfl hc hcheck (storeDouble_aborts hq)
  case ldm1 =>
    obtain rfl := Option.some.inj hx
    exact .of_exec rfl hc hcheck (loadMultiple_aborts hq (listed_of_check hcheck (by simp)))
  case ldm2 | ldm3 =>
    obtain ⟨rfl, hbanked⟩ := banked hx
    exact .of_exec rfl hc hcheck (hbanked _ ▸ loadMultiple_aborts hq (listed_of_check hcheck (by simp)))
  case stm1 =>
    obtain rfl := Option.some.inj hx
    exact .of_exec rfl hc hcheck (storeMultiple_aborts hq (listed_of_check hcheck (by simp)))
  case stm2 =>
    obtain ⟨rfl, hbanked⟩ := banked hx
    exact .of_exec rfl hc hcheck (hbanked _ ▸ storeMultiple_aborts hq (listed_of_check hcheck (by simp)))
  case tPush =>
    obtain rfl := Option.some.inj hx
    exact .of_guarded rfl hcheck (storeMultiple_aborts hq (listed_push hcheck (by decide)))
  case tPop =>
    obtain rfl := Option.some.inj hx
    exact .of_guarded rfl hcheck (loadMultiple_aborts hq (listed_push hcheck (by decide)))
  case tStmia rn l =>
    obtain rfl := Option.some.inj hx
    have hl : l ≠ 0 := beq_eq_false_iff_ne.mp (firstOf_none hcheck (l == 0, .emptyList) (by simp))
    exact .of_guarded rfl hcheck (storeMultiple_aborts hq (listed_append (.inr hl)))
  case tLdmia rn l =>
    obtain rfl := Option.some.inj hx
    have hl : l ≠ 0 := beq_eq_false_iff_ne.mp (firstOf_none hcheck (l == 0, .emptyList) (by simp))
    exact .of_guarded rfl hcheck (loadMultiple_aborts hq (listed_append (.inr hl)))
  all_goals cases hx

end

/-- Settles O39: every access and every transfer by its form, the swaps by both their halves. -/
theorem abortedAccessKeepsBaseAndDestination : Obligations.AbortedAccessKeepsBaseAndDestination := by
  unfold Obligations.AbortedAccessKeepsBaseAndDestination
  intro i s hcheck hc hq
  refine ⟨fun x hx => access_aborts hcheck hc hq hx, fun x hx => transfer_aborts hcheck hc hq hx, fun c rn rd rm size hi => ?_⟩
  rcases hi with ⟨rfl, rfl⟩ | ⟨rfl, rfl⟩
  · rw [exec_of_check rfl hc hcheck]
    exact swapData_aborts (k := .word) hq
  · rw [exec_of_check rfl hc hcheck]
    exact swapData_aborts (k := .byte) hq

end Sys2Proof.Machine

/-! PROOF. The encoder and the decoder (R170 to R207, R228): decoding the encoding of each instruction, by its constructor; and
encoding what the decoder reads, by the fields of the code that the branches of the decode trees have looked at; the statements
O2 and O3. -/

namespace Sys2Proof

section
open Laws.RoundTrip

/-- Every instruction, by the lemma of its constructor (Laws/PerInstr.lean). -/
theorem roundTrip_statement (i : Instr) : Statement i := by
  cases i with
  | andImm => apply andImm | andShImm => apply andShImm | andShReg => apply andShReg | eorImm => apply eorImm
  | eorShImm => apply eorShImm | eorShReg => apply eorShReg | subImm => apply subImm | subShImm => apply subShImm
  | subShReg => apply subShReg | rsbImm => apply rsbImm | rsbShImm => apply rsbShImm | rsbShReg => apply rsbShReg
  | addImm => apply addImm | addShImm => apply addShImm | addShReg => apply addShReg | adcImm => apply adcImm
  | adcShImm => apply adcShImm | adcShReg => apply adcShReg | sbcImm => apply sbcImm | sbcShImm => apply sbcShImm
  | sbcShReg => apply sbcShReg | rscImm => apply rscImm | rscShImm => apply rscShImm | rscShReg => apply rscShReg
  | tstImm => apply tstImm | tstShImm => apply tstShImm | tstShReg => apply tstShReg | teqImm => apply teqImm
  | teqShImm => apply teqShImm | teqShReg => apply teqShReg | cmpImm => apply cmpImm | cmpShImm => apply cmpShImm
  | cmpShReg => apply cmpShReg | cmnImm => apply cmnImm | cmnShImm => apply cmnShImm | cmnShReg => apply cmnShReg
  | orrImm => apply orrImm | orrShImm => apply orrShImm | orrShReg => apply orrShReg | movImm => apply movImm
  | movShImm => apply movShImm | movShReg => apply movShReg | bicImm => apply bicImm | bicShImm => apply bicShImm
  | bicShReg => apply bicShReg | mvnImm => apply mvnImm | mvnShImm => apply mvnShImm | mvnShReg => apply mvnShReg | clz => apply clz
  | mul => apply mul | mla => apply mla | umull => apply umull | umlal => apply umlal | smull => apply smull | smlal => apply smlal
  | smlaXY => apply smlaXY | smlawY => apply smlawY | smulwY => apply smulwY | smlalXY => apply smlalXY | smulXY => apply smulXY
  | qadd => apply qadd | qsub => apply qsub | qdadd => apply qdadd | qdsub => apply qdsub | b => apply b | bl => apply bl
  | blxImm => apply blxImm | bx => apply bx | blxReg => apply blxReg | mrs => apply mrs | msrReg => apply msrReg
  | msrImm => apply msrImm | swi => apply swi | bkpt => apply bkpt | ldrImm => apply ldrImm | ldrReg => apply ldrReg
  | strImm => apply strImm | strReg => apply strReg | ldrbImm => apply ldrbImm | ldrbReg => apply ldrbReg | strbImm => apply strbImm
  | strbReg => apply strbReg | ldrtImm => apply ldrtImm | ldrtReg => apply ldrtReg | strtImm => apply strtImm
  | strtReg => apply strtReg | ldrbtImm => apply ldrbtImm | ldrbtReg => apply ldrbtReg | strbtImm => apply strbtImm
  | strbtReg => apply strbtReg | ldrhImm => apply ldrhImm | ldrhReg => apply ldrhReg | strhImm => apply strhImm
  | strhReg => apply strhReg | ldrsbImm => apply ldrsbImm | ldrsbReg => apply ldrsbReg | ldrshImm => apply ldrshImm
  | ldrshReg => apply ldrshReg | ldrdImm => apply ldrdImm | ldrdReg => apply ldrdReg | strdImm => apply strdImm
  | strdReg => apply strdReg | pldImm => apply pldImm | pldReg => apply pldReg | ldm1 => apply ldm1 | ldm2 => apply ldm2
  | ldm3 => apply ldm3 | stm1 => apply stm1 | stm2 => apply stm2 | swp => apply swp | swpb => apply swpb | cdp => apply cdp
  | ldc => apply ldc | stc => apply stc | mcr => apply mcr | mrc => apply mrc | mcrr => apply mcrr | mrrc => apply mrrc
  | cdp2 => apply cdp2 | ldc2 => apply ldc2 | stc2 => apply stc2 | mcr2 => apply mcr2 | mrc2 => apply mrc2 | mcr15 => apply mcr15
  | mrc15 => apply mrc15 | mcr14 => apply mcr14 | mrc14 => apply mrc14 | undefMedia => apply undefMedia
  | undefMisc => apply undefMisc | tLslImm => apply tLslImm | tLsrImm => apply tLsrImm | tAsrImm => apply tAsrImm
  | tAddReg => apply tAddReg | tSubReg => apply tSubReg | tAddImm3 => apply tAddImm3 | tSubImm3 => apply tSubImm3
  | tMovImm => apply tMovImm | tCmpImm => apply tCmpImm | tAddImm8 => apply tAddImm8 | tSubImm8 => apply tSubImm8
  | tAnd => apply tAnd | tEor => apply tEor | tLslReg => apply tLslReg | tLsrReg => apply tLsrReg | tAsrReg => apply tAsrReg
  | tAdc => apply tAdc | tSbc => apply tSbc | tRor => apply tRor | tTst => apply tTst | tNeg => apply tNeg
  | tCmpReg => apply tCmpReg | tCmn => apply tCmn | tOrr => apply tOrr | tMul => apply tMul | tBic => apply tBic
  | tMvn => apply tMvn | tAddHi => apply tAddHi | tCmpHi => apply tCmpHi | tMovHi => apply tMovHi | tAddPc => apply tAddPc
  | tAddSp => apply tAddSp | tIncSp => apply tIncSp | tDecSp => apply tDecSp | tBx => apply tBx | tBlxReg => apply tBlxReg
  | tLdrPc => apply tLdrPc | tStrReg => apply tStrReg | tStrhReg => apply tStrhReg | tStrbReg => apply tStrbReg
  | tLdrsb => apply tLdrsb | tLdrReg => apply tLdrReg | tLdrhReg => apply tLdrhReg | tLdrbReg => apply tLdrbReg
  | tLdrsh => apply tLdrsh | tStrImm => apply tStrImm | tLdrImm => apply tLdrImm | tStrbImm => apply tStrbImm
  | tLdrbImm => apply tLdrbImm | tStrhImm => apply tStrhImm | tLdrhImm => apply tLdrhImm | tStrSp => apply tStrSp
  | tLdrSp => apply tLdrSp | tPush => apply tPush | tPop => apply tPop | tBkpt => apply tBkpt | tStmia => apply tStmia
  | tLdmia => apply tLdmia | tBCond => apply tBCond | tUndef => apply tUndef | tSwi => apply tSwi | tB => apply tB
  | tBlxSuffix => apply tBlxSuffix | tBlPrefix => apply tBlPrefix | tBlSuffix => apply tBlSuffix

/-- Settles O2: the round trip of each constructor. -/
theorem everyInstructionSurvivesEncoding : Obligations.EveryInstructionSurvivesEncoding := roundTrip_statement

end

/-! ### Fields of a code -/

/-- A field, bit by bit. -/
theorem field_eq_iff {n s k : Nat} {w : BitVec n} {v : BitVec k} :
    w.extractLsb' s k = v ↔ ∀ j < k, w.getLsbD (s + j) = v.getLsbD j := by
  rw [BitVec.eq_of_getLsbD_eq_iff]
  refine forall₂_congr fun j hj => ?_
  rw [BitVec.getLsbD_extractLsb', decide_eq_true hj, Bool.true_and]

/-- The low field of a code is a `put` exactly when its two parts are the fields that were put together. -/
@[simp] theorem low_eq_put {a b n m : Nat} {hi : BitVec a} {lo : BitVec b} {w : BitVec m} (hn : n = a + b) :
    w.extractLsb' 0 n = put n hi lo ↔ w.extractLsb' b a = hi ∧ w.extractLsb' 0 b = lo := by
  subst hn
  simp only [field_eq_iff, Nat.zero_add]
  constructor
  · refine fun h => ⟨fun j hj => ?_, fun j hj => ?_⟩
    · rw [h (b + j) (by omega), put_bit_hi _ _ _ (by omega) rfl, Nat.add_sub_cancel_left]
    · rw [h j (by omega), put_bit_lo _ _ _ hj rfl]
  · rintro ⟨hhi, hlo⟩ j hj
    by_cases h : j < b
    · rw [put_bit_lo _ _ _ h rfl, hlo j h]
    · rw [put_bit_hi _ _ _ (by omega) rfl, ← hhi (j - b) (by omega), Nat.add_sub_cancel' (by omega)]

/-- A field of one bit. -/
@[simp] theorem field_eq_ofBool {n i : Nat} {w : BitVec n} {b : Bool} :
    w.extractLsb' i 1 = BitVec.ofBool b ↔ w.getLsbD i = b := by
  simp [field_eq_iff]

/-- A field that holds a number: its lowest bit, and the rest. -/
theorem field_succ {n s k x : Nat} {w : BitVec n} : w.extractLsb' s (k + 1) = BitVec.ofNat (k + 1) x ↔
    w.getLsbD s = decide (x % 2 = 1) ∧ w.extractLsb' (s + 1) k = BitVec.ofNat k (x / 2) := by
  simp only [field_eq_iff, BitVec.getLsbD_ofNat, Nat.forall_lt_succ_left]
  simp [Nat.testBit_zero, Nat.testBit_succ, Nat.add_right_comm s 1, Nat.add_assoc]

@[simp] theorem Shift.bits_ofBits (b : BitVec 2) : (Shift.ofBits b).bits = b := by revert b; decide

@[simp] theorem notTForm_iff : ∀ {p w : Bool}, notTForm p w = true ↔ (p = false → w = false) := by decide

@[simp] theorem notMcrr_iff : ∀ {p u n w : Bool},
    notMcrr p u n w = true ↔ (w = false → n = true → u = false → p = true) := by decide

theorem Cond.bits_of_ofBits : ∀ b : BitVec 4, ∀ c ∈ Cond.ofBits b, b = c.bits := by decide

/-- Only 1111 names no condition (R173). -/
theorem Cond.ofBits_eq_none : ∀ b : BitVec 4, Cond.ofBits b = none → b = 15#4 := by decide

/-! ### One reading of each code -/

/-- `i` is a reading of the code `w`: it encodes as `w`, and its operands fit its row (R170, R196). -/
def Reads (w : Code) (i : Instr) : Prop := w = encode i ∧ i.encodable = true

@[simp] theorem reads_arm {w : Word} {i : Instr} :
    Reads (.arm w) i ↔ .arm (w.extractLsb' 0 32) = encode i ∧ i.encodable = true := by
  rw [BitVec.extractLsb'_eq_self, Reads]

@[simp] theorem reads_thumb {h : Half} {i : Instr} :
    Reads (.thumb h) i ↔ .thumb (h.extractLsb' 0 16) = encode i ∧ i.encodable = true := by
  rw [BitVec.extractLsb'_eq_self, Reads]

/-- What a decoder answers, if anything, is a reading of the code. -/
def AllRead (w : Code) (o : Option Instr) : Prop := ∀ i, o = some i → Reads w i

@[simp] theorem allRead_none (w : Code) : AllRead w none := fun _ h => (Option.some_ne_none _ h.symm).elim

@[simp] theorem allRead_some {w : Code} {i : Instr} : AllRead w (some i) ↔ Reads w i :=
  ⟨fun h => h i rfl, fun h _ hi => Option.some.inj hi ▸ h⟩

theorem Reads.ite {w : Code} {a b : Instr} {p : Prop} [Decidable p] (ha : p → Reads w a) (hb : ¬ p → Reads w b) :
    Reads w (if p then a else b) := by
  split
  case isTrue h => exact ha h
  case isFalse h => exact hb h

theorem AllRead.ite {w : Code} {a b : Option Instr} {p : Prop} [Decidable p] (ha : p → AllRead w a) (hb : ¬ p → AllRead w b) :
    AllRead w (if p then a else b) := by
  split
  case isTrue h => exact ha h
  case isFalse h => exact hb h

/-! ### ARM codes

A lemma for each decode tree. Its hypotheses are the branches that lead to it; each of its own branches adds the fields that it has
looked at, and these are the fixed bits of the row's encoding. -/

/-- The opcode that is none of the others (R175, R202). -/
theorem opcode_last : ∀ x : BitVec 4, (∀ y ∈ [0#4, 1, 2, 3, 4, 5, 6, 7, 8, 9, 10, 11, 12, 13, 14], x ≠ y) → x = 15#4 := by
  decide

/-- The value of three bits that is none of the others (R174, R200). -/
theorem octal_last : ∀ x : BitVec 3, (∀ y ∈ [0#3, 1, 2, 3, 4, 5, 6], x ≠ y) → x = 7#3 := by decide

section
variable {c : Cond} {w : Word} (hc : w.extractLsb' 28 4 = c.bits)
include hc

theorem decodeDpImm_reads (hform : w.extractLsb' 25 3 = 0b001#3)
    (hmisc : ¬ (w.extractLsb' 23 2 = 0b10#2 && !w.getLsbD 20) = true) : Reads (.arm w) (decodeDpImm c w) := by
  repeat' refine .ite (fun _ => ?_) (fun _ => ?_)
  on_goal 16 => have := opcode_last (w.extractLsb' 21 4) (by simp [*])
  all_goals simp_all [encode, Instr.encodable, field_succ, -BitVec.extractLsb'_eq_self, -BitVec.getLsbD_eq_getElem]

theorem decodeDpShImm_reads (hform : w.extractLsb' 25 3 = 0b000#3) (h4 : ¬ w.getLsbD 4 = true)
    (hmisc : ¬ (w.extractLsb' 23 2 = 0b10#2 && !w.getLsbD 20) = true) : Reads (.arm w) (decodeDpShImm c w) := by
  repeat' refine .ite (fun _ => ?_) (fun _ => ?_)
  on_goal 16 => have := opcode_last (w.extractLsb' 21 4) (by simp [*])
  all_goals simp_all [encode, Instr.encodable, field_succ, -BitVec.extractLsb'_eq_self, -BitVec.getLsbD_eq_getElem]

theorem decodeDpShReg_reads (hform : w.extractLsb' 25 3 = 0b000#3) (h47 : ¬ (w.getLsbD 7 && w.getLsbD 4) = true)
    (h4 : w.getLsbD 4 = true) (hmisc : ¬ (w.extractLsb' 23 2 = 0b10#2 && !w.getLsbD 20) = true)
    : Reads (.arm w) (decodeDpShReg c w) := by
  repeat' refine .ite (fun _ => ?_) (fun _ => ?_)
  on_goal 16 => have := opcode_last (w.extractLsb' 21 4) (by simp [*])
  all_goals simp_all [encode, Instr.encodable, field_succ, -BitVec.extractLsb'_eq_self, -BitVec.getLsbD_eq_getElem]

theorem decodeMisc_reads (hform : w.extractLsb' 25 3 = 0b000#3) (h47 : ¬ (w.getLsbD 7 && w.getLsbD 4) = true)
    (hmisc : (w.extractLsb' 23 2 = 0b10#2 && !w.getLsbD 20) = true) : AllRead (.arm w) (decodeMisc c w) := by
  repeat' refine .ite (fun _ => ?_) (fun _ => ?_)
  all_goals simp_all [encode, Instr.encodable, Cond.bits, field_succ, -BitVec.extractLsb'_eq_self, -BitVec.getLsbD_eq_getElem]

theorem decodeMul_reads (hform : w.extractLsb' 25 3 = 0b000#3) (h47 : (w.getLsbD 7 && w.getLsbD 4) = true)
    (h56 : w.extractLsb' 5 2 = 0b00#2) : AllRead (.arm w) (decodeMul c w) := by
  repeat' refine .ite (fun _ => ?_) (fun _ => ?_)
  all_goals simp_all [encode, Instr.encodable, field_succ, -BitVec.extractLsb'_eq_self, -BitVec.getLsbD_eq_getElem]

theorem decodeMode3_reads (hform : w.extractLsb' 25 3 = 0b000#3) (h47 : (w.getLsbD 7 && w.getLsbD 4) = true)
    (h56 : ¬ w.extractLsb' 5 2 = 0b00#2) : Reads (.arm w) (decodeMode3 c w) := by
  repeat' refine .ite (fun _ => ?_) (fun _ => ?_)
  all_goals simp_all [encode, Instr.encodable, field_succ, -BitVec.extractLsb'_eq_self, -BitVec.getLsbD_eq_getElem]

theorem decodeMode2Imm_reads (hform : w.extractLsb' 25 3 = 0b010#3) : Reads (.arm w) (decodeMode2Imm c w) := by
  repeat' refine .ite (fun _ => ?_) (fun _ => ?_)
  all_goals simp_all [encode, Instr.encodable, field_succ, -BitVec.extractLsb'_eq_self, -BitVec.getLsbD_eq_getElem]

theorem decodeMode2Reg_reads (hform : w.extractLsb' 25 3 = 0b011#3) (h4 : ¬ w.getLsbD 4 = true)
    : Reads (.arm w) (decodeMode2Reg c w) := by
  repeat' refine .ite (fun _ => ?_) (fun _ => ?_)
  all_goals simp_all [encode, Instr.encodable, field_succ, -BitVec.extractLsb'_eq_self, -BitVec.getLsbD_eq_getElem]

theorem decodeMulti_reads (hform : w.extractLsb' 25 3 = 0b100#3) : Reads (.arm w) (decodeMulti c w) := by
  repeat' refine .ite (fun _ => ?_) (fun _ => ?_)
  all_goals simp_all [encode, Instr.encodable, field_succ, -BitVec.extractLsb'_eq_self, -BitVec.getLsbD_eq_getElem]

theorem decodeCopMem_reads (hform : w.extractLsb' 25 3 = 0b110#3) : Reads (.arm w) (decodeCopMem c w) := by
  repeat' refine .ite (fun _ => ?_) (fun _ => ?_)
  all_goals simp_all [encode, Instr.encodable, field_succ, -BitVec.extractLsb'_eq_self, -BitVec.getLsbD_eq_getElem]

theorem decodeCopReg_reads (hform : w.extractLsb' 25 3 = 0b111#3) (h24 : ¬ w.getLsbD 24 = true)
    : Reads (.arm w) (decodeCopReg c w) := by
  repeat' refine .ite (fun _ => ?_) (fun _ => ?_)
  all_goals simp_all [encode, Instr.encodable, otherCp, field_succ, -BitVec.extractLsb'_eq_self, -BitVec.getLsbD_eq_getElem]

/-- The top level for a condition (R174). -/
theorem decodeCond_reads : AllRead (.arm w) (decodeCond c w) := by
  refine .ite (fun h000 => .ite (fun h47 => .ite (fun h56 => ?mul) (fun h56 => ?mode3))
      fun h47 => .ite (fun hm => ?misc) fun hm => .ite (fun h4 => ?shReg) (fun h4 => ?shImm)) fun _ =>
    .ite (fun h001 => .ite (fun hm => .ite (fun _ => ?msr) (fun _ => ?undefMisc)) fun hm => ?dpImm) fun _ =>
    .ite (fun h010 => ?mode2Imm) fun _ => .ite (fun h011 => .ite (fun _ => ?undefMedia) (fun h4 => ?mode2Reg)) fun _ =>
    .ite (fun h100 => ?multi) fun _ => .ite (fun h101 => .ite (fun _ => ?bl) (fun _ => ?b)) fun _ =>
    .ite (fun h110 => ?copMem) fun _ => .ite (fun h24 => ?swi) (fun h24 => ?copReg)
  case mul => exact decodeMul_reads hc h000 h47 h56
  case mode3 => exact allRead_some.mpr (decodeMode3_reads hc h000 h47 h56)
  case misc => exact decodeMisc_reads hc h000 h47 hm
  case shReg => exact allRead_some.mpr (decodeDpShReg_reads hc h000 h47 h4 hm)
  case shImm => exact allRead_some.mpr (decodeDpShImm_reads hc h000 h4 hm)
  case dpImm => exact allRead_some.mpr (decodeDpImm_reads hc h001 hm)
  case mode2Imm => exact allRead_some.mpr (decodeMode2Imm_reads hc h010)
  case mode2Reg => exact allRead_some.mpr (decodeMode2Reg_reads hc h011 h4)
  case multi => exact allRead_some.mpr (decodeMulti_reads hc h100)
  case copMem => exact allRead_some.mpr (decodeCopMem_reads hc h110)
  case copReg => exact allRead_some.mpr (decodeCopReg_reads hc (octal_last _ (by simp [*])) h24)
  case swi =>
    have h111 := octal_last (w.extractLsb' 25 3) (by simp [*])
    simp_all [encode, Instr.encodable, field_succ, -BitVec.extractLsb'_eq_self, -BitVec.getLsbD_eq_getElem]
  all_goals simp_all [encode, Instr.encodable, field_succ, -BitVec.extractLsb'_eq_self, -BitVec.getLsbD_eq_getElem]

end

/-- The unconditional space (R173). -/
theorem decodeUncond_reads {w : Word} (hc : w.extractLsb' 28 4 = 15#4) : AllRead (.arm w) (decodeUncond w) := by
  repeat' refine .ite (fun _ => ?_) (fun _ => ?_)
  all_goals simp_all [encode, Instr.encodable, field_succ, -BitVec.extractLsb'_eq_self, -BitVec.getLsbD_eq_getElem]

theorem decodeArm_reads (w : Word) : AllRead (.arm w) (decodeArm w) := by
  unfold decodeArm
  split
  next c h => exact decodeCond_reads (Cond.bits_of_ofBits _ c h)
  next h => exact decodeUncond_reads (Cond.ofBits_eq_none _ h)

/-! ### Thumb codes -/

section
variable {h : Half}

theorem decodeThumbDp_reads (htop : h.extractLsb' 13 3 = 2#3) (h12 : ¬ h.getLsbD 12 = true) (h11 : ¬ h.getLsbD 11 = true)
    (h10 : (!h.getLsbD 10) = true) : Reads (.thumb h) (decodeThumbDp h) := by
  repeat' refine .ite (fun _ => ?_) (fun _ => ?_)
  on_goal 16 => have := opcode_last (h.extractLsb' 6 4) (by simp [*])
  all_goals simp_all [encode, Instr.encodable, field_succ, -BitVec.extractLsb'_eq_self, -BitVec.getLsbD_eq_getElem]

theorem decodeThumbMemReg_reads (htop : h.extractLsb' 13 3 = 2#3) (h12 : h.getLsbD 12 = true)
    : Reads (.thumb h) (decodeThumbMemReg h) := by
  repeat' refine .ite (fun _ => ?_) (fun _ => ?_)
  on_goal 8 => have := octal_last (h.extractLsb' 9 3) (by simp [*])
  all_goals simp_all [encode, Instr.encodable, field_succ, -BitVec.extractLsb'_eq_self, -BitVec.getLsbD_eq_getElem]

theorem decodeThumb0_reads (htop : h.extractLsb' 13 3 = 0#3) : Reads (.thumb h) (decodeThumb0 h) := by
  repeat' refine .ite (fun _ => ?_) (fun _ => ?_)
  all_goals simp_all [encode, Instr.encodable, field_succ, -BitVec.extractLsb'_eq_self, -BitVec.getLsbD_eq_getElem]

theorem decodeThumb1_reads (htop : h.extractLsb' 13 3 = 1#3) : Reads (.thumb h) (decodeThumb1 h) := by
  repeat' refine .ite (fun _ => ?_) (fun _ => ?_)
  all_goals simp_all [encode, Instr.encodable, field_succ, -BitVec.extractLsb'_eq_self, -BitVec.getLsbD_eq_getElem]

theorem decodeThumb2_reads (htop : h.extractLsb' 13 3 = 2#3) : Reads (.thumb h) (decodeThumb2 h) := by
  refine .ite (fun h12 => ?memReg) fun h12 => .ite (fun h11 => ?ldrPc) fun h11 => .ite (fun h10 => ?dp) fun h10 => ?high
  case memReg => exact decodeThumbMemReg_reads htop h12
  case dp => exact decodeThumbDp_reads htop h12 h11 h10
  case high =>
    repeat' refine .ite (fun _ => ?_) (fun _ => ?_)
    all_goals simp_all [encode, Instr.encodable, field_succ, -BitVec.extractLsb'_eq_self, -BitVec.getLsbD_eq_getElem]
  case ldrPc => simp_all [encode, Instr.encodable, field_succ, -BitVec.extractLsb'_eq_self, -BitVec.getLsbD_eq_getElem]

theorem decodeThumb3_reads (htop : h.extractLsb' 13 3 = 3#3) : Reads (.thumb h) (decodeThumb3 h) := by
  repeat' refine .ite (fun _ => ?_) (fun _ => ?_)
  all_goals simp_all [encode, Instr.encodable, field_succ, -BitVec.extractLsb'_eq_self, -BitVec.getLsbD_eq_getElem]

theorem decodeThumb4_reads (htop : h.extractLsb' 13 3 = 4#3) : Reads (.thumb h) (decodeThumb4 h) := by
  repeat' refine .ite (fun _ => ?_) (fun _ => ?_)
  all_goals simp_all [encode, Instr.encodable, field_succ, -BitVec.extractLsb'_eq_self, -BitVec.getLsbD_eq_getElem]

theorem decodeThumb5_reads (htop : h.extractLsb' 13 3 = 5#3) : AllRead (.thumb h) (decodeThumb5 h) := by
  repeat' refine .ite (fun _ => ?_) (fun _ => ?_)
  all_goals simp_all [encode, Instr.encodable, field_succ, -BitVec.extractLsb'_eq_self, -BitVec.getLsbD_eq_getElem]

/-- The conditional branch has a condition of its own: 1110 and 1111 are the next two rows (R206). -/
theorem decodeThumb6_reads (htop : h.extractLsb' 13 3 = 6#3) : Reads (.thumb h) (decodeThumb6 h) := by
  refine .ite (fun _ => .ite (fun _ => ?_) (fun _ => ?_)) fun _ => ?branch
  case branch =>
    split
    next hc =>
      have := Cond.ofBits_eq_none _ hc
      simp_all [encode, Instr.encodable, field_succ, -BitVec.extractLsb'_eq_self, -BitVec.getLsbD_eq_getElem]
    next c hc =>
      have := Cond.bits_of_ofBits _ c hc
      clear hc
      refine .ite (fun _ => ?_) (fun _ => ?_)
      all_goals simp_all [encode, Instr.encodable, Cond.bits, field_succ, -BitVec.extractLsb'_eq_self, -BitVec.getLsbD_eq_getElem]
  all_goals simp_all [encode, Instr.encodable, field_succ, -BitVec.extractLsb'_eq_self, -BitVec.getLsbD_eq_getElem]

theorem decodeThumb7_reads (htop : h.extractLsb' 13 3 = 7#3) : AllRead (.thumb h) (decodeThumb7 h) := by
  repeat' refine .ite (fun _ => ?_) (fun _ => ?_)
  all_goals simp_all [encode, Instr.encodable, field_succ, -BitVec.extractLsb'_eq_self, -BitVec.getLsbD_eq_getElem]

end

theorem decodeThumb_reads (h : Half) : AllRead (.thumb h) (decodeThumb h) := by
  refine .ite (fun h0 => ?_) fun _ => .ite (fun h1 => ?_) fun _ => .ite (fun h2 => ?_) fun _ => .ite (fun h3 => ?_) fun _ =>
    .ite (fun h4 => ?_) fun _ => .ite (fun h5 => ?_) fun _ => .ite (fun h6 => ?_) fun _ => ?_
  · exact allRead_some.mpr (decodeThumb0_reads h0)
  · exact allRead_some.mpr (decodeThumb1_reads h1)
  · exact allRead_some.mpr (decodeThumb2_reads h2)
  · exact allRead_some.mpr (decodeThumb3_reads h3)
  · exact allRead_some.mpr (decodeThumb4_reads h4)
  · exact decodeThumb5_reads h5
  · exact allRead_some.mpr (decodeThumb6_reads h6)
  · exact decodeThumb7_reads (octal_last _ (by simp [*]))

/-! ### The statement -/

theorem decode_reads {w : Code} {i : Instr} (h : decode w = .ok i) : Reads w i := by
  cases w
  all_goals
    simp only [decode] at h
    split at h
  next hi => exact Except.ok.inj h ▸ decodeArm_reads _ _ hi
  next => cases h
  next hi => exact Except.ok.inj h ▸ decodeThumb_reads _ _ hi
  next => cases h

/-- Settles O3: what the decode trees answer reads the code. -/
theorem everyDecodedCodeIsItsEncoding : Obligations.EveryDecodedCodeIsItsEncoding := by
  unfold Obligations.EveryDecodedCodeIsItsEncoding
  intro w i h
  obtain ⟨hw, hfit⟩ := decode_reads h
  exact ⟨hw.symm, hfit⟩

end Sys2Proof

/-! PROOF. The shifter operands (R176, R177, R178): the carry and each bit of the value, shift by shift; the statement O12. -/

namespace Sys2Proof.Machine

/-! ### Bits of a rotation and of the sign -/

theorem ror_getLsbD (m : Word) (n : Nat) {j : Nat} (hj : j < 32) :
    (ror m n).getLsbD j = m.getLsbD ((j + n) % 32) := by
  rw [ror, BitVec.getLsbD_rotateRight]
  by_cases hlow : j < 32 - n % 32
  · have : (j + n) % 32 = n % 32 + j := by omega
    simp [hlow, this]
  · have : (j + n) % 32 = j - (32 - n % 32) := by omega
    simp [hlow, hj, this]

theorem signFill_getLsbD (m : Word) {j : Nat} (hj : j < 32) :
    (if m.msb then 0xFFFFFFFF else 0 : Word).getLsbD j = m.msb := by
  cases m.msb with
  | false => exact BitVec.getLsbD_zero
  | true => exact (BitVec.getLsbD_allOnes (v := 32)).trans (decide_eq_true hj)

/-! ### A shift by a register -/

theorem shiftByReg_zero (sh : Shift) (m : Word) (c : Bool) : shiftByReg sh 0 m c = ⟨m, c⟩ := rfl

theorem shiftByReg_lsl_carry (m : Word) (c : Bool) {n : Nat} (hn : 0 < n) :
    (shiftByReg .lsl n m c).carry = (decide (n ≤ 32) && m.getLsbD (32 - n)) := by
  obtain hlt | rfl | hgt := Nat.lt_trichotomy n 32
  · simp [shiftByReg, hn.ne', hlt, hlt.le]
  · rfl
  · simp [shiftByReg, hn.ne', hgt.ne', hgt.not_gt, hgt.not_ge]

theorem shiftByReg_lsl_bit (m : Word) (c : Bool) {n j : Nat} (hn : 0 < n) (hj : j < 32) :
    (shiftByReg .lsl n m c).value.getLsbD j = (decide (n ≤ j) && m.getLsbD (j - n)) := by
  obtain hlt | hge := Nat.lt_or_ge n 32
  · have hval : (shiftByReg .lsl n m c).value = m <<< n := by simp [shiftByReg, hn.ne', hlt]
    rw [hval, BitVec.getLsbD_shiftLeft, decide_eq_true hj, Bool.true_and, ← decide_not, decide_eq_decide.mpr Nat.not_lt]
  · have hval : (shiftByReg .lsl n m c).value = 0 := by
      simp only [shiftByReg, hn.ne', hge.not_gt, if_false]; split <;> rfl
    have : ¬ n ≤ j := by omega
    simp [hval, this]

theorem shiftByReg_lsr_carry (m : Word) (c : Bool) {n : Nat} (hn : 0 < n) :
    (shiftByReg .lsr n m c).carry = m.getLsbD (n - 1) := by
  obtain hlt | rfl | hgt := Nat.lt_trichotomy n 32
  · simp [shiftByReg, hn.ne', hlt]
  · simp [shiftByReg, BitVec.msb_eq_getLsbD_last]
  · have hout : m.getLsbD (n - 1) = false := BitVec.getLsbD_of_ge m _ (by omega)
    simp [shiftByReg, hn.ne', hgt.ne', hgt.not_gt, hout]

theorem shiftByReg_lsr_bit (m : Word) (c : Bool) {n : Nat} (hn : 0 < n) (j : Nat) :
    (shiftByReg .lsr n m c).value.getLsbD j = m.getLsbD (j + n) := by
  obtain hlt | hge := Nat.lt_or_ge n 32
  · have hval : (shiftByReg .lsr n m c).value = m >>> n := by simp [shiftByReg, hn.ne', hlt]
    rw [hval, BitVec.getLsbD_ushiftRight, Nat.add_comm]
  · have hval : (shiftByReg .lsr n m c).value = 0 := by
      simp only [shiftByReg, hn.ne', hge.not_gt, if_false]; split <;> rfl
    have hout : m.getLsbD (j + n) = false := BitVec.getLsbD_of_ge m _ (by omega)
    simp [hval, hout]

theorem shiftByReg_asr_carry (m : Word) (c : Bool) {n : Nat} (hn : 0 < n) :
    (shiftByReg .asr n m c).carry = m.getLsbD (min n 32 - 1) := by
  obtain hlt | hge := Nat.lt_or_ge n 32
  · simp [shiftByReg, hn.ne', hlt, Nat.min_eq_left hlt.le]
  · simp [shiftByReg, hn.ne', hge.not_gt, Nat.min_eq_right hge, BitVec.msb_eq_getLsbD_last]

theorem shiftByReg_asr_bit (m : Word) (c : Bool) {n j : Nat} (hn : 0 < n) (hj : j < 32) :
    (shiftByReg .asr n m c).value.getLsbD j = m.getLsbD (min (j + n) 31) := by
  obtain hlt | hge := Nat.lt_or_ge n 32
  · have hval : (shiftByReg .asr n m c).value = m.sshiftRight n := by simp [shiftByReg, hn.ne', hlt]
    rw [hval, BitVec.getLsbD_sshiftRight]
    by_cases hin : n + j < 32
    · have : min (j + n) 31 = n + j := by omega
      simp [hj, hin, this]
    · have : min (j + n) 31 = 31 := by omega
      simp [hj, hin, this, BitVec.msb_eq_getLsbD_last]
  · have hval : (shiftByReg .asr n m c).value = if m.msb then 0xFFFFFFFF else 0 := by
      simp [shiftByReg, hn.ne', hge.not_gt]
    have : min (j + n) 31 = 31 := by omega
    rw [hval, signFill_getLsbD m hj, this, BitVec.msb_eq_getLsbD_last]

theorem shiftByReg_ror_carry (m : Word) (c : Bool) {n : Nat} (hn : 0 < n) :
    (shiftByReg .ror n m c).carry = m.getLsbD ((n - 1) % 32) := by
  by_cases hmul : n % 32 = 0
  · have : (n - 1) % 32 = 31 := by omega
    simp [shiftByReg, hn.ne', hmul, this, BitVec.msb_eq_getLsbD_last]
  · have : (n - 1) % 32 = n % 32 - 1 := by omega
    simp [shiftByReg, hn.ne', hmul, this]

theorem shiftByReg_ror_bit (m : Word) (c : Bool) {n j : Nat} (hn : 0 < n) (hj : j < 32) :
    (shiftByReg .ror n m c).value.getLsbD j = m.getLsbD ((j + n) % 32) := by
  by_cases hmul : n % 32 = 0
  · have : (j + n) % 32 = j := by omega
    simp [shiftByReg, hn.ne', hmul, this]
  · have hval : (shiftByReg .ror n m c).value = ror m (n % 32) := by simp [shiftByReg, hn.ne', hmul]
    rw [hval, ror_getLsbD m _ hj, Nat.add_mod_mod]

/-! ### A shift by an immediate -/

theorem shiftByImm_of_ne_zero (m : Word) (c : Bool) {sa : BitVec 5} (sh : Shift) (hsa : sa ≠ 0) :
    shiftByImm sh sa m c = shiftByReg sh sa.toNat m c := by
  have hpos : sa.toNat ≠ 0 := fun h => hsa (BitVec.eq_of_toNat_eq h)
  have hlt : sa.toNat < 32 := sa.isLt
  have hmod : sa.toNat % 32 = sa.toNat := Nat.mod_eq_of_lt hlt
  cases sh with
  | lsl | lsr | asr => simp only [shiftByImm, shiftByReg, hsa, hpos, hlt, if_true, if_false]
  | ror => simp only [shiftByImm, shiftByReg, hsa, hpos, hmod, if_false]

/-- RRX: the old carry comes in at the top (R177). -/
theorem rrx_bit (m : Word) (c : Bool) {j : Nat} (hj : j < 32) :
    (shiftByImm .ror 0 m c).value.getLsbD j = if j = 31 then c else m.getLsbD (j + 1) := by
  change (BitVec.ofBool c ++ m.extractLsb' 1 31 : BitVec 32).getLsbD j = _
  rw [BitVec.getLsbD_append]
  obtain hlow | rfl : j < 31 ∨ j = 31 := by omega
  · simp [hlow, hlow.ne, Nat.add_comm]
  · simp

/-! ### The immediate form -/

theorem immOperand_bit (rot : BitVec 4) (imm : BitVec 8) (c : Bool) {j : Nat} (hj : j < 32) :
    (immOperand rot imm c).value.getLsbD j = imm.getLsbD ((j + 2 * rot.toNat) % 32) := by
  have hin : (j + 2 * rot.toNat) % 32 < 32 := Nat.mod_lt _ (by decide)
  change (ror (imm.setWidth 32) (2 * rot.toNat)).getLsbD j = _
  rw [ror_getLsbD _ _ hj, BitVec.getLsbD_setWidth, decide_eq_true hin, Bool.true_and]

theorem immOperand_carry (rot : BitVec 4) (imm : BitVec 8) (c : Bool) :
    (immOperand rot imm c).carry = if rot = 0 then c else (immOperand rot imm c).value.getLsbD 31 :=
  congrArg (if rot = 0 then c else ·) (BitVec.msb_eq_getLsbD_last _)

/-- Settles O12: each conjunct by the lemma of its shift. -/
theorem shifterOperandsBitByBit : Obligations.ShifterOperandsBitByBit := by
  refine ⟨fun m c n sh => ⟨shiftByReg_zero sh m c, fun hn => ?_⟩, fun m c sa sh hsa => shiftByImm_of_ne_zero m c sh hsa,
    fun m c => ⟨rfl, rfl, rfl, rfl, fun j hj => rrx_bit m c hj⟩,
    fun rot imm c => ⟨fun j hj => immOperand_bit rot imm c hj, immOperand_carry rot imm c⟩⟩
  exact ⟨shiftByReg_lsl_carry m c hn, shiftByReg_lsr_carry m c hn, shiftByReg_asr_carry m c hn, shiftByReg_ror_carry m c hn,
    fun j hj => ⟨shiftByReg_lsl_bit m c hn hj, shiftByReg_lsr_bit m c hn j, shiftByReg_asr_bit m c hn hj,
      shiftByReg_ror_bit m c hn hj⟩⟩

end Sys2Proof.Machine

/-! PROOF. Branches (R186, R332, R334) and the instructions that trap (R195, R344, R345, R400 to R410, R528 to R530); the
statements O23 and O27. -/

namespace Sys2Proof.Machine

/-! ### Branches -/

/-- The offset of a branch is four times the signed field (R186). -/
theorem branchOffset_eq_ofInt (off : BitVec 24) : branchOffset off = BitVec.ofInt 32 (4 * off.toInt) := by
  rw [branchOffset, BitVec.shiftLeft_eq_mul_twoPow, BitVec.ofInt_mul, BitVec.mul_comm]
  rfl

theorem branchTarget_eq (s : State) (off : BitVec 24) :
    s.branchTarget off = s.pc + 8 + BitVec.ofInt 32 (4 * off.toInt) := by
  rw [State.branchTarget, branchOffset_eq_ofInt]

theorem brings_setReg (s : State) {r : Reg} (hr : r ≠ 15) (v : Word) : Brings [(s.phys r, v)] s (s.setReg r v) :=
  Drained.brings_setReg ⟨rfl, fun _ => rfl⟩ hr v

/-- The link register is written, and the CPSR becomes `p` with the branch. -/
theorem gives_linkBranch (s : State) (p : Psr) (v a : Word) :
    Gives (.next (State.branchTo { s.setReg 14 v with cpsr := p } a)) s a p [(s.phys 14, v)] [] :=
  (brings_setReg s (by decide) v).gives_branch p a

theorem exec_b {c : Cond} {s : State} (off : BitVec 24) (hc : s.cpsr.passes c = true) :
    exec (.b c off) s = .next (s.branchTo (s.branchTarget off)) :=
  conditional_pass hc

theorem exec_bl {c : Cond} {s : State} (off : BitVec 24) (hc : s.cpsr.passes c = true) :
    exec (.bl c off) s = .next ((s.setReg 14 (s.pc + 4)).branchTo (s.branchTarget off)) :=
  conditional_pass hc

theorem exec_blxImm (h : Bool) (off : BitVec 24) (s : State) :
    exec (.blxImm h off) s =
      .next (((s.setReg 14 (s.pc + 4)).setT true).branchTo (s.branchTarget off + if h then 2 else 0)) := rfl

/-- Settles O23: each target by `branchTarget_eq`, the rest by the write of r14 and the branch. -/
theorem branchesReachTheirTarget : Obligations.BranchesReachTheirTarget := by
  intro c h off s
  simp only [← branchTarget_eq]
  refine ⟨fun hc => ?b, fun hc => ?bl, ?blx⟩
  case b =>
    rw [exec_b off hc]
    exact (Brings.refl s).gives_branch s.cpsr _
  case bl =>
    rw [exec_bl off hc]
    exact gives_linkBranch s s.cpsr _ _
  case blx =>
    rw [exec_blxImm]
    exact gives_linkBranch s { s.cpsr with t := true } _ _

/-! ### Traps -/

/-- A coprocessor that this processor does not have traps (R400 to R410). -/
theorem enters_noCoprocessor (s : State) : Enters (noCoprocessor s) s .undef := enters_takeException s .undef

/-- Under a condition that passes. -/
theorem enters_conditional {c : Cond} {s : State} {k : Result} {e : Exc} (hc : s.cpsr.passes c = true) (h : Enters k s e) :
    Enters (conditional c s k) s e := by
  rwa [conditional_pass hc]

/-- The unconditional forms, for a coprocessor other than 14 and 15 (R410). -/
theorem enters_unconditionalCp (s : State) {cp : BitVec 4} (h14 : cp ≠ 14) (h15 : cp ≠ 15) :
    Enters (unconditionalCp cp s) s .undef := by
  rw [unconditionalCp, if_neg (not_or.mpr ⟨h14, h15⟩)]
  exact enters_noCoprocessor s

theorem bkptHalts_iff (s : State) :
    s.bkptHalts = true ↔ s.params.dbgen = true ∧ s.dbg.monitor = false ∧ s.dbg.takesBkpt = true := by
  simp [State.bkptHalts, and_assoc]

theorem enters_breakpoint {s : State} (h : s.bkptHalts = false) : Enters (.next (breakpoint s)) s .prefetchAbort := by
  rw [breakpoint, h]
  exact enters_takeException s .prefetchAbort

/-- What the debugger then sees in r15 is the next free value (R602, log 45). -/
theorem breakpoint_halts {s : State} (h : s.bkptHalts = true) :
    (.next (breakpoint s) : Result) = .next { s with
      standby := false, free := s.free + 1, dbg := s.dbg.afterEntry s.cpsr.t (Config.freeWord s.free) } := by
  rw [breakpoint, h]
  rfl

/-- Settles O27: the conditional traps, the unconditional coprocessor forms, the Thumb traps, and BKPT by whether it halts. -/
theorem trapsTakeTheirException : Obligations.TrapsTakeTheirException := by
  intro c p u n w rn rd cp k1 k2 k3 o1 o2 off b1 b12 b20 b24 s
  refine ⟨fun hc => ?cond, fun h14 h15 => ?uncond, enters_takeException s .swi, enters_takeException s .undef,
    fun hno => ?entered, fun hen hmon htakes => ?halted⟩
  case cond =>
    have traps {e : Exc} := enters_conditional hc (enters_takeException s e)
    exact ⟨traps, traps, traps, traps, traps, traps, traps, traps, traps, traps⟩
  case uncond =>
    have traps := enters_unconditionalCp s h14 h15
    exact ⟨traps, traps, traps, traps, traps⟩
  case entered =>
    have hstays : s.bkptHalts = false := by
      refine eq_false_of_ne_true fun h => ?_
      obtain ⟨hen, hmon, htakes⟩ := (bkptHalts_iff s).mp h
      simp [hen, hmon, htakes] at hno
    exact ⟨enters_breakpoint hstays, enters_breakpoint hstays⟩
  case halted =>
    have hhalts := breakpoint_halts ((bkptHalts_iff s).mpr ⟨hen, hmon, htakes⟩)
    intro i hi
    refine ⟨Config.freeWord s.free, ?_⟩
    obtain rfl | rfl : i = .bkpt b12 k1 ∨ i = .tBkpt off := by simpa using hi
    · exact hhalts
    · exact hhalts

end Sys2Proof.Machine

/-! PROOF. CP15 and CP14 in User mode (R230, R260), and the words that the rules write out (R241, R278 to R521): the statements O43
and O1. -/

namespace Sys2Proof.Machine

/-! ### Coprocessor accesses without privilege (R230, R260) -/

/-- User mode is the one mode without privilege (R590). -/
theorem priv_eq_false_iff {s : State} : s.priv = false ↔ s.cpsr.m = modeUser := by
  simp only [State.priv, privileged, bne_eq_false_iff_eq]

section
variable {s : State}

/-- Without privilege the meaning of a CP15 access is the Undefined Instruction exception, whatever stands behind it (R230). -/
theorem enters_privilegedOnly (k : Result) (h : s.priv = false) : Enters (privilegedOnly s k) s .undef := by
  rw [privilegedOnly, if_neg (ne_true_of_eq_false h)]
  exact enters_takeException s .undef

/-- Without privilege a CP14 access has no meaning, whatever stands behind it (R260). -/
theorem cp14Access_refused (k : Result) (h : s.priv = false) : cp14Access s k = .refused (.unpredictable .cp14User) :=
  if_neg (ne_true_of_eq_false h)

/-- So a CP14 access whose condition passes is refused (R21, R260). -/
theorem conditional_cp14Access_refused {c : Cond} (k : Result) (hc : s.cpsr.passes c = true) (h : s.priv = false) :
    conditional c s (cp14Access s k) = .refused (.unpredictable .cp14User) := by
  rw [conditional_pass hc, cp14Access_refused k h]

end

/-- Settles O43: each access asks for the privilege before it looks at its operands. -/
theorem userModeHasNoCp15 : Obligations.UserModeHasNoCp15 := by
  unfold Obligations.UserModeHasNoCp15
  intro c o1 o2 crn crm rd s hc hm
  have hpriv : s.priv = false := priv_eq_false_iff.mpr hm
  refine ⟨?mcr15, ?mrc15, ?mcr14, ?mrc14⟩
  case mcr15 | mrc15 => exact enters_conditional hc (enters_privilegedOnly _ hpriv)
  case mcr14 | mrc14 => exact conditional_cp14Access_refused _ hc hpriv

end Sys2Proof.Machine

namespace Sys2Proof

/-! ### Words written out in the rules -/

/-- A code that is the encoding of an instruction whose operands fit its row decodes to it (R170, R228). -/
theorem decode_of_encode {w : Code} {i : Instr} (hw : encode i = w) (hfit : i.encodable = true) : decode w = .ok i :=
  hw ▸ everyInstructionSurvivesEncoding i hfit

/-- Settles O1: each word is the encoding of its instruction, by evaluation, and the round trip reads it back. -/
theorem wordsOfTheSpecDecode : Obligations.WordsOfTheSpecDecode := by
  unfold Obligations.WordsOfTheSpecDecode
  and_intros
  all_goals exact decode_of_encode (by decide) (by decide)

end Sys2Proof

/-! PROOF. The debug communications channel (R62, R260 to R266): the statement O44. -/

namespace Sys2Proof.Machine

/-! ### The selectors (R261) -/

/-- The CRn that names a register of CP14; the other fields of its selector are 0 (R261). -/
def Cp14.crn : Cp14 → BitVec 4
  | .status => 0
  | .data => 1
  | .monitorStatus => 2

theorem cp14Select_crn (r : Cp14) : cp14Select 0 r.crn 0 0 = some r := by
  cases r <;> rfl

/-- A register is named by its own selector only (R261). -/
theorem cp14Select_some {o1 o2 : BitVec 3} {crn crm : BitVec 4} {r : Cp14} (h : cp14Select o1 crn crm o2 = some r) :
    (o1, crn, o2, crm) = (0, r.crn, 0, 0) := by
  unfold cp14Select at h
  split_ifs at h with hzero hcrn hcrn hcrn
  all_goals
    cases h
    obtain ⟨rfl, rfl, rfl⟩ := hzero
    rw [hcrn]
    rfl

/-! ### MRC and MCR (R260) -/

section
variable {c : Cond} {rd : Reg} {s t : State} {o1 o2 : BitVec 3} {crn crm : BitVec 4} {r : Cp14} {v : Word}
variable (hc : s.cpsr.passes c = true) (hp : s.priv = true) (hrd : rd ≠ 15)
include hc hp hrd

/-- With the condition passed, the privilege, and no r15, an access to CP14 has its meaning (R21, R260). -/
theorem cp14Frame_eq (k : Result) : conditional c s (cp14Access s (guarded (noPcCheck rd) k)) = k := by
  rw [conditional_pass hc, cp14Access_of_priv _ hp, noPcCheck_none hrd, guarded_none]

/-- An MRC brings what the register reads into the destination (R260, R261). -/
theorem mrc14_of_some (h : cp14Select o1 crn crm o2 = some r) (hread : cp14Read r s = (v, t)) :
    exec (.mrc14 c o1 crn rd o2 crm) s = .next (t.setReg rd v).advance :=
  (cp14Frame_eq hc hp hrd _).trans (by simp only [h, hread])

/-- A selector that names no register is refused for reading (R261). -/
theorem mrc14_of_none (h : cp14Select o1 crn crm o2 = none) :
    exec (.mrc14 c o1 crn rd o2 crm) s = .refused (.unpredictable .cpSelector) :=
  (cp14Frame_eq hc hp hrd _).trans (by simp only [h, unpredictable])

/-- An MCR writes the register that the selector names (R260, R261). -/
theorem mcr14_of_some (h : cp14Select o1 crn crm o2 = some r) :
    exec (.mcr14 c o1 crn rd o2 crm) s = cp14Write r (s.reg rd) s :=
  (cp14Frame_eq hc hp hrd _).trans (by simp only [h])

/-- A selector that names no register is refused for writing (R261). -/
theorem mcr14_of_none (h : cp14Select o1 crn crm o2 = none) :
    exec (.mcr14 c o1 crn rd o2 crm) s = .refused (.unpredictable .cpSelector) :=
  (cp14Frame_eq hc hp hrd _).trans (by simp only [h, unpredictable])

/-- An MRC of a register whose reading has no side effect computes what the register reads (R262, R265). -/
theorem mrc14_computes (h : cp14Select o1 crn crm o2 = some r) (hread : cp14Read r s = (v, s)) :
    Computes (.mrc14 c o1 crn rd o2 crm) s s.cpsr [(s.phys rd, v)] := by
  rw [Computes, mrc14_of_some hc hp hrd h hread]
  exact gives_setReg_advance s v rfl rfl hrd

/-- An MRC of a register whose reading changes the state writes the destination in the state that the reading leaves (R263). -/
theorem mrc14_next (h : cp14Select o1 crn crm o2 = some r) (hread : cp14Read r s = (v, t)) :
    exec (.mrc14 c o1 crn rd o2 crm) s = .next (t.setPhys (t.phys rd) v).advance := by
  rw [mrc14_of_some hc hp hrd h hread, State.setReg, if_neg hrd, State.phys]

/-- An MRC at a selector that R261 does not list for reading is refused. -/
theorem mrc14_unlisted (hlist : (o1, crn, o2, crm) ∉ [(0, 0, 0, 0), (0, 1, 0, 0), (0, 2, 0, 0)]) :
    exec (.mrc14 c o1 crn rd o2 crm) s = .refused (.unpredictable .cpSelector) := by
  cases h : cp14Select o1 crn crm o2 with
  | none => exact mrc14_of_none hc hp hrd h
  | some r =>
    rw [cp14Select_some h] at hlist
    cases r <;> exact absurd (by decide) hlist

/-- An MCR at a selector that R261 does not list for writing is refused: it names no register, or the status register, which is
read-only (R261, R262). -/
theorem mcr14_unlisted (hlist : (o1, crn, o2, crm) ∉ [(0, 1, 0, 0), (0, 2, 0, 0)]) :
    exec (.mcr14 c o1 crn rd o2 crm) s = .refused (.unpredictable .cpSelector) := by
  cases h : cp14Select o1 crn crm o2 with
  | none => exact mcr14_of_none hc hp hrd h
  | some r =>
    rw [cp14Select_some h] at hlist
    cases r with
    | status => exact mcr14_of_some hc hp hrd h
    | data | monitorStatus => exact absurd (by decide) hlist

end

/-! ### The registers (R262 to R266) -/

section
variable {s : State} {v : Word}

/-- Reading the message that the debugger has left clears R (R263). -/
theorem cp14Read_data_full (h : s.dcc.r = true) :
    cp14Read .data s = (s.dcc.readData, { s with dcc := { s.dcc with r := false } }) := if_pos h

/-- Reading with no message there brings a free value and leaves the channel alone (R263, U6). -/
theorem cp14Read_data_empty (h : s.dcc.r = false) :
    cp14Read .data s = (Config.freeWord s.free, { s with free := s.free + 1 }) := if_neg (ne_true_of_eq_false h)

/-- A message for the debugger sets W (R264). -/
theorem cp14Write_data_empty (h : s.dcc.w = false) :
    cp14Write .data v s = .next (State.advance { s with dcc := { s.dcc with writeData := v, w := true } }) :=
  if_neg (ne_true_of_eq_false h)

/-- A message that nobody has read yet stays or is lost (R264, U5). -/
theorem cp14Write_data_full (h : s.dcc.w = true) : ∃ w, (w = s.dcc.writeData ∨ w = v) ∧
    cp14Write .data v s = .next (State.advance { s with dcc := { s.dcc with writeData := w }, free := s.free + 1 }) :=
  ⟨if Config.freeBit s.free then v else s.dcc.writeData, (ite_eq_or_eq ..).symm, if_pos h⟩

/-- The bits that R266 reserves, as a field and as a mask. -/
theorem reservedBits_eq_zero_iff (v : Word) : v.extractLsb' 1 31 = 0 ↔ v &&& 0xFFFFFFFE = 0 := by
  have hmask : 0#32 ||| v &&& 1 = v ↔ v &&& 0xFFFFFFFE = 0 := or_and_eq_iff (by decide)
  have hfield : (v.extractLsb' 1 31).toNat = v.toNat / 2 % 2 ^ 31 := by
    rw [BitVec.extractLsb'_toNat, Nat.shiftRight_eq_div_pow]
  have hlow : (v &&& 1).toNat = v.toNat % 2 := (BitVec.toNat_and v 1).trans (Nat.and_one_is_mod _)
  rw [← hmask, BitVec.zero_or, ← BitVec.toNat_inj, ← BitVec.toNat_inj, hfield, hlow]
  show v.toNat / 2 % 2 ^ 31 = 0 ↔ v.toNat % 2 = v.toNat
  omega

/-- A write of the Monitor Debug-Mode Status Register is one of DbgAbt, or refused for its reserved bits (R266). -/
theorem cp14Write_monitorStatus (v : Word) (s : State) : cp14Write .monitorStatus v s =
    if v &&& 0xFFFFFFFE = 0 then .next (State.advance { s with dcc := { s.dcc with dbgAbt := v.getLsbD 0 } })
    else .refused (.unpredictable .cpReserved) := by
  simp only [cp14Write, reservedBits_eq_zero_iff, unpredictable]

end

/-- Settles O44, register by register. -/
theorem debugChannelTransfers : Obligations.DebugChannelTransfers := by
  unfold Obligations.DebugChannelTransfers
  intro c rd o1 o2 crn crm s hc hp hrd v goes
  have mcr (r : Cp14) : exec (.mcr14 c 0 r.crn rd 0 0) s = cp14Write r v s := mcr14_of_some hc hp hrd (cp14Select_crn r)
  refine ⟨mrc14_computes hc hp hrd (cp14Select_crn .status) rfl, mrc14_computes hc hp hrd (cp14Select_crn .monitorStatus) rfl,
    fun hr => ?read, fun hr => ?readEmpty, fun hw => ?write, fun hw => ?overwrite, fun hv => ?monitor, fun hv => ?reserved,
    mrc14_unlisted hc hp hrd, mcr14_unlisted hc hp hrd⟩
  case read => exact mrc14_next hc hp hrd (cp14Select_crn .data) (cp14Read_data_full hr)
  case readEmpty => exact ⟨_, mrc14_next hc hp hrd (cp14Select_crn .data) (cp14Read_data_empty hr)⟩
  case write => exact (mcr .data).trans (cp14Write_data_empty hw)
  case overwrite =>
    obtain ⟨w, hold, hwrite⟩ := cp14Write_data_full (v := v) hw
    exact ⟨w, hold, (mcr .data).trans hwrite⟩
  case monitor => exact (mcr .monitorStatus).trans ((cp14Write_monitorStatus v s).trans (if_pos hv))
  case reserved => exact (mcr .monitorStatus).trans ((cp14Write_monitorStatus v s).trans (if_neg hv))

end Sys2Proof.Machine

/-! PROOF. Data processing (R275 to R294): the logical operations, the compares, the branch by a result in r15, and CLZ; the
statements O13, O15, O16 and O18. -/

namespace Sys2Proof.Machine

/-! ### The logical operations (R278, R279, R290 to R293) -/

/-- The flags of a logical operation are N and Z of its result and the carry of the shifter (R276). -/
theorem DpOp.status_logical {op : DpOp} (h : op ∈ [DpOp.and, .eor, .orr, .bic, .mov, .mvn]) (sf : Bool) (n : Word)
    (x : Shifted) (p : Psr) : op.status sf n x p = flagsLogical sf p (op.result n x.value p.c) x.carry := by
  cases op
  case sub | rsb | add | adc | sbc | rsc | cmp | cmn => simp at h
  all_goals rfl

/-- Settles O13: none of the six operations is a compare, so that each computes by its rule, and its flags are those of the
logical class. -/
theorem logicalOperationsGiveResultAndFlags : Obligations.LogicalOperationsGiveResultAndFlags := by
  unfold Obligations.LogicalOperationsGiveResultAndFlags
  intro op c sf rn rd o s hop hc hrd ho x r
  have hdst : ∀ op ∈ [DpOp.and, .eor, .orr, .bic, .mov, .mvn], op ∉ [DpOp.tst, .teq, .cmp, .cmn] := by decide
  rw [← DpOp.status_logical hop]
  exact DpOp.instr_computes (hdst op hop) sf hc hrd ho

/-! ### The compares (R286 to R289) -/

/-- The meaning of a compare, in its three forms. -/
theorem DpOp.exec_compare {op : DpOp} (h : op ∈ [DpOp.tst, .teq, .cmp, .cmn]) (c : Cond) (sf : Bool) (rn rd : Reg)
    (o : Operand2) (s : State) : exec (op.instr c sf rn rd o) s = conditional c s (guarded (op.instr c sf rn rd o).check
      (dataCompare op (s.reg rn) (o.eval s) s)) := by
  cases op
  case tst | teq | cmp | cmn => cases o <;> rfl
  all_goals simp at h

/-- With the registers that `Allows` admits the operands of a compare are no UNPREDICTABLE combination (R178). -/
theorem DpOp.compare_check {op : DpOp} (h : op ∈ [DpOp.tst, .teq, .cmp, .cmn]) (c : Cond) (sf : Bool) {rn : Reg} (rd : Reg)
    {o : Operand2} (ho : o.Allows [rn]) : (op.instr c sf rn rd o).check = none := by
  cases o with
  | imm | shImm => cases op <;> rfl
  | shReg rs sh rm =>
    obtain ⟨hs, hm, hregs⟩ := ho
    have hn : rn ≠ 15 := fun e => hregs (e ▸ List.mem_cons_self ..)
    cases op
    case tst | teq | cmp | cmn => exact shRegCheckZ_none hn hs hm
    all_goals simp at h

/-- A compare writes its flags and goes on (R276). -/
theorem dataCompare_gives (op : DpOp) (n : Word) (x : Shifted) (s : State) :
    Gives (dataCompare op n x s) s s.nextAddr (op.status true n x s.cpsr) [] [] := by
  obtain ⟨-, ht⟩ := DpOp.status_mode_state op true n x s.cpsr
  rw [dataCompare, DpOp.eval_eq]
  exact gives_cpsr_advance s ht

/-- Settles O15: the frame of a compare, then the flags of its rule. -/
theorem comparesWriteOnlyFlags : Obligations.ComparesWriteOnlyFlags := by
  unfold Obligations.ComparesWriteOnlyFlags
  intro op c sf rn rd o s hop hc ho
  rw [Computes, DpOp.exec_compare hop, conditional_pass hc, DpOp.compare_check hop c sf rd ho, guarded_none]
  exact dataCompare_gives op (s.reg rn) (o.eval s) s

/-! ### The branch by a result in r15 (R277, R331) -/

/-- An operation with destination r15 and S = 0 writes its result to the pc (R277). -/
theorem DpOp.exec_branch {op : DpOp} (h : op ∉ [DpOp.tst, .teq, .cmp, .cmn]) {c : Cond} {rn : Reg} {o : Operand2} {s : State}
    (hc : s.cpsr.passes c = true) (hcheck : (op.instr c false rn 15 o).check = none) :
    exec (op.instr c false rn 15 o) s = writePcArm (op.result (s.reg rn) (o.eval s).value s.cpsr.c) s := by
  rw [DpOp.exec_instr h, conditional_pass hc, hcheck, guarded_none]
  simp only [dataProcess, DpOp.eval_eq, if_true, Bool.false_eq_true, if_false]

/-- A word-aligned value goes to the pc (R331). -/
theorem writePcArm_of_aligned {v : Word} (s : State) (h : v.toNat % 4 = 0) : writePcArm v s = .next (s.branchTo v) :=
  if_pos ((low_two_zero_iff v).mpr h)

/-- Another value is refused (R331). -/
theorem writePcArm_of_misaligned {v : Word} (s : State) (h : v.toNat % 4 ≠ 0) :
    writePcArm v s = .refused (.unpredictable .target) :=
  if_neg (mt (low_two_zero_iff v).mp h)

/-- Settles O16: the clauses are those of the write of the pc. -/
theorem dataProcessingToPcBranches : Obligations.DataProcessingToPcBranches := by
  unfold Obligations.DataProcessingToPcBranches
  intro op c rn o s hop hc hcheck v
  rw [DpOp.exec_branch hop hc hcheck]
  refine ⟨fun hv => ?aligned, fun hv => writePcArm_of_misaligned s hv⟩
  case aligned =>
    rw [writePcArm_of_aligned s hv]
    exact (Brings.refl s).gives_branch s.cpsr v

/-! ### CLZ (R294) -/

theorem leadingZeros_le (x : Word) (n : Nat) : leadingZeros x n ≤ n := by
  induction n with
  | zero => exact Nat.le_refl 0
  | succ n ih =>
    rw [leadingZeros]
    split <;> omega

/-- The bits that were counted are 0. -/
theorem getLsbD_of_leadingZeros (x : Word) {n j : Nat} (hj : n - leadingZeros x n ≤ j) (hn : j < n) : x.getLsbD j = false := by
  induction n with
  | zero => exact absurd hn (Nat.not_lt_zero j)
  | succ n ih =>
    rw [leadingZeros] at hj
    split at hj
    next => omega
    next htop =>
      rcases Nat.lt_succ_iff_lt_or_eq.mp hn with hlt | rfl
      · exact ih (by omega) hlt
      · exact eq_false_of_ne_true htop

/-- The count ends at a bit that is 1, or at the bottom. -/
theorem getLsbD_below_leadingZeros (x : Word) {n : Nat} (h : leadingZeros x n < n) :
    x.getLsbD (n - 1 - leadingZeros x n) = true := by
  induction n with
  | zero => exact absurd h (Nat.not_lt_zero _)
  | succ n ih =>
    rw [leadingZeros] at h ⊢
    split at h
    next htop => rwa [if_pos htop]
    next htop =>
      have hlt : leadingZeros x n < n := by omega
      rw [if_neg htop, show n + 1 - 1 - (leadingZeros x n + 1) = n - 1 - leadingZeros x n by omega]
      exact ih hlt

/-- With the condition passed and no r15, CLZ writes the count to its destination (R294). -/
theorem exec_clz {c : Cond} {rd rm : Reg} {s : State} (hc : s.cpsr.passes c = true) (hrd : rd ≠ 15) (hrm : rm ≠ 15) :
    exec (.clz c 15 rd 15 rm) s = .next (s.setReg rd (countLeadingZeros (s.reg rm))).advance := by
  have hcheck : clzCheck 15 rd 15 rm = none := by
    simp only [clzCheck, firstOf, beq_false_of_ne hrd, beq_false_of_ne hrm]
    rfl
  show conditional c s (guarded (clzCheck 15 rd 15 rm) _) = _
  rw [conditional_pass hc, hcheck, guarded_none]

/-- Settles O18: `k` is the count of the model; the bits above it and the one at which it ends. -/
theorem clzCountsLeadingZeros : Obligations.ClzCountsLeadingZeros := by
  unfold Obligations.ClzCountsLeadingZeros
  intro c rd rm s hc hrd hrm
  refine ⟨leadingZeros (s.reg rm) 32, leadingZeros_le _ 32, ?_, fun j hj hn => getLsbD_of_leadingZeros _ hj hn,
    fun hk => getLsbD_below_leadingZeros _ hk⟩
  rw [Computes, exec_clz hc hrd hrm]
  exact gives_setReg_advance s (countLeadingZeros (s.reg rm)) rfl rfl hrd

end Sys2Proof.Machine

/-! PROOF. The multiplies and the saturating instructions (R300 to R317): the operands that their checks allow, the frame of each
shape of result, and the arithmetic of halves, long products and saturation; the statements O19 to O22. -/

namespace Sys2Proof.Machine

/-! ### The operands that the checks allow (R300 to R303, R312) -/

/-- A check finds nothing when none of its cases holds. -/
theorem firstOf_eq_none {l : List (Bool × Unpred)} : firstOf l = none ↔ ∀ x ∈ l, x.1 = false := by
  refine ⟨firstOf_none, fun h => ?_⟩
  induction l with
  | nil => rfl
  | cons x r ih =>
    obtain ⟨hx, hr⟩ := List.forall_mem_cons.mp h
    rw [firstOf, hx]
    exact ih hr

theorem mulCheck_eq_none {rd rs rm : Reg} {z : BitVec 4} :
    mulCheck rd z rs rm = none ↔ z = 0 ∧ (rd ≠ 15 ∧ rs ≠ 15 ∧ rm ≠ 15) ∧ rd ≠ rm := by
  simp [mulCheck, firstOf_eq_none, and_assoc]

theorem mlaCheck_eq_none {rd rn rs rm : Reg} :
    mlaCheck rd rn rs rm = none ↔ (rd ≠ 15 ∧ rn ≠ 15 ∧ rs ≠ 15 ∧ rm ≠ 15) ∧ rd ≠ rm := by
  simp [mlaCheck, firstOf_eq_none, and_assoc]

theorem longCheck_eq_none {rdHi rdLo rs rm : Reg} : longCheck rdHi rdLo rs rm = none ↔
    (rdHi ≠ 15 ∧ rdLo ≠ 15 ∧ rs ≠ 15 ∧ rm ≠ 15) ∧ rdHi ≠ rdLo ∧ rdHi ≠ rm ∧ rdLo ≠ rm := by
  simp [longCheck, firstOf_eq_none, and_assoc]

theorem smlalXYCheck_eq_none {rdHi rdLo rs rm : Reg} : smlalXYCheck rdHi rdLo rs rm = none ↔
    (rdHi ≠ 15 ∧ rdLo ≠ 15 ∧ rs ≠ 15 ∧ rm ≠ 15) ∧ rdHi ≠ rdLo := by
  simp [smlalXYCheck, firstOf_eq_none, and_assoc]

theorem fourRegCheck_eq_none {a b c d : Reg} : fourRegCheck a b c d = none ↔ a ≠ 15 ∧ b ≠ 15 ∧ c ≠ 15 ∧ d ≠ 15 := by
  simp [fourRegCheck, firstOf_eq_none, and_assoc]

theorem threeRegCheck_eq_none {z : BitVec 4} {a b c : Reg} :
    threeRegCheck z a b c = none ↔ z = 0 ∧ a ≠ 15 ∧ b ≠ 15 ∧ c ≠ 15 := by
  simp [threeRegCheck, firstOf_eq_none, and_assoc]

/-! ### The shapes of a result (R301 to R306, R317) -/

/-- An instruction whose condition passes and whose operands are no UNPREDICTABLE combination computes what its meaning gives. -/
theorem computes_of_check {i : Instr} {c : Cond} {s : State} {k : Result} {p : Psr} {dst : List (PhysReg × Word)}
    (hexec : exec i s = conditional c s (guarded i.check k)) (hc : s.cpsr.passes c = true) (hcheck : i.check = none)
    (hk : Gives k s s.nextAddr p dst []) : Computes i s p dst := by
  rw [Computes, exec_of_check hexec hc hcheck]
  exact hk

/-- A multiply with S writes N and Z as a logical operation does that leaves C alone (R301). -/
theorem setNZ_eq_flagsLogical (sf : Bool) (p : Psr) (r : Word) : (if sf then p.setNZ r else p) = flagsLogical sf p r p.c := by
  simp only [Psr.setNZ, flagsLogical, BitVec.msb_eq_getLsbD_last]
  rfl

theorem setNZ64_eq (p : Psr) (r : BitVec 64) : p.setNZ64 r = { p with n := r.getLsbD 63, z := decide (r = 0) } := by
  simp only [Psr.setNZ64, BitVec.msb_eq_getLsbD_last]
  rfl

/-- A result of 32 bits in a register other than r15, with N and Z (R301, R302). -/
theorem multiplyResult_gives (sf : Bool) {rd : Reg} (r : Word) (s : State) (hrd : rd ≠ 15) :
    Gives (multiplyResult sf rd r s) s s.nextAddr (flagsLogical sf s.cpsr r s.cpsr.c) [(s.phys rd, r)] [] := by
  rw [multiplyResult, setNZ_eq_flagsLogical]
  exact gives_setReg_advance s r (by cases sf <;> rfl) (by cases sf <;> rfl) hrd

/-- A result in a register other than r15, with the sticky flag (R317). -/
theorem stickyResult_gives {rd : Reg} (r : Word) (sat : Bool) (s : State) (hrd : rd ≠ 15) :
    Gives (stickyResult rd r sat s) s s.nextAddr { s.cpsr with q := s.cpsr.q || sat } [(s.phys rd, r)] [] :=
  gives_setReg_advance s r rfl rfl hrd

theorem Done.refl (s : State) : Done [] [] s s :=
  ⟨rfl, rfl, rfl, rfl, ⟨nofun, fun _ _ => rfl⟩, ⟨nofun, fun _ _ => rfl⟩, rfl⟩

/-- Work that begins after a write of the CPSR that leaves the state, and the advance to the next instruction. -/
theorem Done.gives_status_advance {dst : List (PhysReg × Word)} {s u : State} {p : Psr}
    (h : Done dst [] { s with cpsr := p } u) (ht : p.t = s.cpsr.t) : Gives (.next u.advance) s s.nextAddr p dst [] := by
  obtain ⟨t, hnext, hpc, hcpsr, hregs, ⟨-, hmem⟩, hspsrs, hun, hsys⟩ := h.gives_advance false
  refine ⟨t, hnext, ?pc, hcpsr, hregs, ⟨nofun, hmem⟩, hspsrs, hun, hsys⟩
  case pc => rw [hpc, State.nextAddr, State.instrLen, ht]; rfl

/-- A write of the CPSR that leaves mode and state, then writes of two registers other than r15, and the advance. -/
theorem gives_setReg_setReg_advance (s : State) {p : Psr} {r q : Reg} (v w : Word) (hm : p.m = s.cpsr.m) (ht : p.t = s.cpsr.t)
    (hr : r ≠ 15) (hq : q ≠ 15) (hne : r ≠ q) :
    Gives (.next ((State.setReg { s with cpsr := p } r v).setReg q w).advance) s s.nextAddr p
      [(s.phys r, v), (s.phys q, w)] [] := by
  have hphys : ∀ k, State.phys { s with cpsr := p } k = s.phys k := fun k => by simp only [State.phys, hm]
  have hdone := ((Done.refl { s with cpsr := p }).setReg v hr List.not_mem_nil).setReg w hq
    (by simpa using phys_ne hq hr hne.symm)
  simp only [hphys] at hdone
  exact hdone.gives_status_advance ht

/-- A result of 64 bits in two registers other than r15, with N and Z of 64 bits (R303 to R306). -/
theorem longResult_gives (sf : Bool) {rdHi rdLo : Reg} (r : BitVec 64) (s : State) (hHi : rdHi ≠ 15) (hLo : rdLo ≠ 15)
    (hne : rdHi ≠ rdLo) :
    Gives (longResult sf rdHi rdLo r s) s s.nextAddr (if sf then s.cpsr.setNZ64 r else s.cpsr)
      [(s.phys rdHi, hiWord r), (s.phys rdLo, loWord r)] [] :=
  gives_setReg_setReg_advance s _ _ (by cases sf <;> rfl) (by cases sf <;> rfl) hHi hLo hne

/-! ### Words and their products (R301 to R306) -/

theorem hiWord_eq (r : BitVec 64) : hiWord r = (r >>> 32).setWidth 32 := by
  ext j
  simp [hiWord]

theorem loWord_eq (r : BitVec 64) : loWord r = r.setWidth 32 := (BitVec.setWidth_eq_extractLsb' (by decide)).symm

theorem pair64_eq (hi lo : Word) : pair64 hi lo = hi.setWidth 64 <<< 32 ||| lo.setWidth 64 := by
  rw [pair64, BitVec.append_def, BitVec.shiftLeftZeroExtend_eq, BitVec.setWidth'_eq]

theorem unsignedProduct_eq (x y : Word) : unsignedProduct x y = x.setWidth 64 * y.setWidth 64 := by
  apply BitVec.eq_of_toNat_eq
  simp [unsignedProduct, BitVec.toNat_mul]

/-- A sign extension is the signed value as 64 bits, so that the product of sign extensions is the signed product (R305). -/
theorem signedProduct_eq (x y : Word) : signedProduct x y = x.signExtend 64 * y.signExtend 64 := BitVec.ofInt_mul ..

/-- Settles O19: the result is that of the meaning, its register no r15 by the check. -/
theorem multiplyGivesLowWord : Obligations.MultiplyGivesLowWord := by
  unfold Obligations.MultiplyGivesLowWord
  intro c sf rd rn rs rm s hc gives
  refine ⟨fun hcheck => ?mul, fun hcheck => ?mla⟩
  case mul =>
    obtain ⟨-, ⟨hrd, -⟩, -⟩ := mulCheck_eq_none.mp hcheck
    exact computes_of_check rfl hc hcheck (multiplyResult_gives sf _ s hrd)
  case mla =>
    obtain ⟨⟨hrd, -⟩, -⟩ := mlaCheck_eq_none.mp hcheck
    exact computes_of_check rfl hc hcheck (multiplyResult_gives sf _ s hrd)

/-- A long multiply whose operands the check of R303 allows writes the two halves of its result. -/
theorem longMultiply_computes {i : Instr} {c : Cond} {sf : Bool} {rdHi rdLo rs rm : Reg} {r : BitVec 64} {s : State}
    (hexec : exec i s = conditional c s (guarded i.check (longResult sf rdHi rdLo r s))) (hc : s.cpsr.passes c = true)
    (hi : i.check = longCheck rdHi rdLo rs rm) (hcheck : i.check = none) :
    Computes i s (if sf then { s.cpsr with n := r.getLsbD 63, z := decide (r = 0) } else s.cpsr)
      [(s.phys rdHi, (r >>> 32).setWidth 32), (s.phys rdLo, r.setWidth 32)] := by
  obtain ⟨⟨hHi, hLo, -⟩, hne, -⟩ := longCheck_eq_none.mp (hi ▸ hcheck)
  rw [← hiWord_eq, ← loWord_eq, ← setNZ64_eq]
  exact computes_of_check hexec hc hcheck (longResult_gives sf r s hHi hLo hne)

/-- Settles O20: the four share the shape of their result; the accumulator is added on the other side. -/
theorem longMultiplyGivesBothWords : Obligations.LongMultiplyGivesBothWords := by
  unfold Obligations.LongMultiplyGivesBothWords
  intro c sf rdHi rdLo rs rm s hc gives u d acc
  have hu : unsignedProduct (s.reg rm) (s.reg rs) = u := unsignedProduct_eq ..
  have hd : signedProduct (s.reg rm) (s.reg rs) = d := signedProduct_eq ..
  have hacc : pair64 (s.reg rdHi) (s.reg rdLo) = acc := pair64_eq ..
  rw [BitVec.add_comm acc u, BitVec.add_comm acc d, ← hu, ← hd, ← hacc]
  exact ⟨longMultiply_computes rfl hc rfl, longMultiply_computes rfl hc rfl, longMultiply_computes rfl hc rfl,
    longMultiply_computes rfl hc rfl⟩

/-! ### Halves (R307 to R312) -/

/-- A half, sign-extended to a word: the top one is the arithmetic shift, which divides by 2^16 (R307). -/
theorem halfWord_eq_signExtend (v : Word) (top : Bool) : halfWord v top = (halfAt v top).signExtend 32 := by
  cases top with
  | false => exact congrArg (BitVec.signExtend 32) (BitVec.setWidth_eq_extractLsb' (by decide))
  | true =>
    apply BitVec.eq_of_toInt_eq
    show (v.sshiftRight 16).toInt = ((v.extractLsb' 16 16).signExtend 32).toInt
    have hv := v.isLt
    rw [BitVec.toInt_sshiftRight, BitVec.toInt_signExtend_of_le (by decide), BitVec.toInt_extractLsb',
      BitVec.toInt_eq_toNat_bmod, Int.shiftRight_eq_div_pow, Nat.shiftRight_eq_div_pow]
    simp only [Int.bmod]
    omega

theorem halfWord_toInt (v : Word) (top : Bool) : (halfWord v top).toInt = signedHalf v top := by
  rw [halfWord_eq_signExtend, BitVec.toInt_signExtend_of_le (by decide), signedHalf]

/-- The product of words is the narrowed product of the signed halves (R308). -/
theorem halfProduct_eq (x y : Bool) (m n : Word) : halfProduct x y m n = halfWord m x * halfWord n y := by
  rw [halfProduct, BitVec.ofInt_mul, ← halfWord_toInt, ← halfWord_toInt, BitVec.ofInt_toInt, BitVec.ofInt_toInt]

/-- Narrowing keeps the low bits of an integer. -/
theorem setWidth_ofInt (i : Int) : (BitVec.ofInt 64 i).setWidth 32 = BitVec.ofInt 32 i := by
  apply BitVec.eq_of_toNat_eq
  simp only [BitVec.toNat_setWidth, BitVec.toNat_ofInt]
  omega

theorem abs_toInt_le {w : Nat} (x : BitVec w) : |x.toInt| ≤ 2 ^ (w - 1) := abs_le.mpr ⟨x.le_toInt, x.toInt_lt.le⟩

/-- The product of a word and a half has 48 bits, so that 64 bits hold it (R310). -/
theorem toInt_wordProduct_half (m n : Word) (y : Bool) :
    (m.signExtend 64 * (halfWord n y).signExtend 64).toInt = m.toInt * signedHalf n y := by
  have hbound : |m.toInt * signedHalf n y| ≤ 2 ^ 31 * 2 ^ 15 := by
    rw [abs_mul]
    exact mul_le_mul (abs_toInt_le m) (abs_toInt_le (halfAt n y)) (abs_nonneg _) (by decide)
  obtain ⟨hge, hle⟩ := abs_le.mp hbound
  rw [BitVec.toInt_mul, BitVec.toInt_signExtend_of_le (by decide), BitVec.toInt_signExtend_of_le (by decide), halfWord_toInt]
  exact Int.bmod_eq_of_le (by omega) (by omega)

theorem wideProduct_eq (y : Bool) (m n : Word) : wideProduct y m n =
    ((m.signExtend 64 * (halfWord n y).signExtend 64).sshiftRight 16).setWidth 32 := by
  rw [BitVec.sshiftRight_eq, toInt_wordProduct_half, setWidth_ofInt, Int.shiftRight_eq_div_pow]
  rfl

/-- An accumulation of 32 bits: the sum, and its overflow by the sign rule (R309, R311). -/
theorem addWithCarry_false_eq (x y : Word) :
    (addWithCarry x y false).value = x + y ∧ (addWithCarry x y false).overflow = sumOverflows x y := by
  have hvalue : (addWithCarry x y false).value = x + y := (addWithCarry_value x y false).trans (BitVec.add_zero _)
  refine ⟨hvalue, ?_⟩
  rw [addWithCarry_overflow, hvalue, sumOverflows]

/-- An accumulation of 32 bits in a register other than r15, with Q on overflow (R309, R311). -/
theorem accumulate_gives {rd : Reg} (v n : Word) (s : State) (hrd : rd ≠ 15) :
    let r := addWithCarry v n false
    Gives (stickyResult rd r.value r.overflow s) s s.nextAddr { s.cpsr with q := s.cpsr.q || sumOverflows v n }
      [(s.phys rd, v + n)] [] := by
  obtain ⟨hvalue, hoverflow⟩ := addWithCarry_false_eq v n
  rw [← hvalue, ← hoverflow]
  exact stickyResult_gives _ _ s hrd

/-- Settles O21: the products by their rules, then the shape of each result. -/
theorem halfwordMultipliesAccumulate : Obligations.HalfwordMultipliesAccumulate := by
  unfold Obligations.HalfwordMultipliesAccumulate
  intro c x y rd rn rs rm s hc p w q l
  have hp : halfProduct x y (s.reg rm) (s.reg rs) = p := halfProduct_eq ..
  have hw : wideProduct y (s.reg rm) (s.reg rs) = w := wideProduct_eq ..
  have hl : pair64 (s.reg rd) (s.reg rn) + p.signExtend 64 = l := congrArg (· + p.signExtend 64) (pair64_eq ..)
  rw [← hl, ← hp, ← hw, ← hiWord_eq, ← loWord_eq]
  refine ⟨fun hcheck => ?smul, fun hcheck => ?smulw, fun hcheck => ?smla, fun hcheck => ?smlaw, fun hcheck => ?smlal⟩
  case smul | smulw =>
    obtain ⟨-, hrd, -⟩ := threeRegCheck_eq_none.mp hcheck
    exact computes_of_check rfl hc hcheck (multiplyResult_gives false _ s hrd)
  case smla | smlaw =>
    obtain ⟨hrd, -⟩ := fourRegCheck_eq_none.mp hcheck
    exact computes_of_check rfl hc hcheck (accumulate_gives _ _ s hrd)
  case smlal =>
    obtain ⟨⟨hrd, hrn, -⟩, hne⟩ := smlalXYCheck_eq_none.mp hcheck
    exact computes_of_check rfl hc hcheck (longResult_gives false _ s hrd hrn hne)

/-! ### Saturation (R22, R313 to R316) -/

/-- Saturation narrows the clamped integer, and marks whether it was clamped (R22). -/
theorem signedSat32_eq (i : Int) : signedSat32 i = (BitVec.ofInt 32 (clamp i), decide (clamp i ≠ i)) := by
  unfold signedSat32
  split
  next habove =>
    have h : clamp i = 2 ^ 31 - 1 := by unfold clamp; omega
    rw [h, decide_eq_true (by omega)]
    rfl
  next habove =>
    split
    next hbelow =>
      have h : clamp i = -2 ^ 31 := by unfold clamp; omega
      rw [h, decide_eq_true (by omega)]
      rfl
    next hbelow =>
      have h : clamp i = i := by unfold clamp; omega
      rw [h, decide_eq_false (not_not_intro rfl)]

/-- A clamped integer is held by 32 bits (R22). -/
theorem toInt_ofInt_clamp (i : Int) : (BitVec.ofInt 32 (clamp i)).toInt = clamp i :=
  BitVec.toInt_ofInt_eq_self (by decide) (by unfold clamp; omega) (by unfold clamp; omega)

/-- A saturated result, in a register other than r15, with Q set also by an earlier step that saturated (R313 to R317). -/
theorem saturated_gives {rd : Reg} (v : Int) (also : Bool) (s : State) (hrd : rd ≠ 15) :
    Gives (stickyResult rd (signedSat32 v).1 (also || (signedSat32 v).2) s) s s.nextAddr
      { s.cpsr with q := s.cpsr.q || also || decide (clamp v ≠ v) } [(s.phys rd, BitVec.ofInt 32 (clamp v))] [] := by
  rw [signedSat32_eq, Bool.or_assoc]
  exact stickyResult_gives _ _ s hrd

/-- Settles O22: QADD and QSUB saturate once, QDADD and QDSUB double first, and the doubled value is the clamped integer. -/
theorem saturatingArithmeticClamps : Obligations.SaturatingArithmeticClamps := by
  unfold Obligations.SaturatingArithmeticClamps
  intro c rn rd rm s hc hrn hrd hrm m n gives
  have hcheck : threeRegCheck 0 rn rd rm = none := threeRegCheck_eq_none.mpr ⟨rfl, hrn, hrd, hrm⟩
  have hdoubled : doubled (s.reg rn) = (BitVec.ofInt 32 (clamp (2 * n)), decide (clamp (2 * n) ≠ 2 * n)) := signedSat32_eq _
  refine ⟨?qadd, ?qsub, ?qdadd, ?qdsub⟩
  case qadd | qsub => exact computes_of_check rfl hc hcheck (saturated_gives _ false s hrd)
  case qdadd | qdsub =>
    refine computes_of_check rfl hc hcheck ?_
    rw [hdoubled, toInt_ofInt_clamp]
    exact saturated_gives _ _ s hrd

end Sys2Proof.Machine

/-! PROOF. The hazard of R656: an instruction that uses a banked register directly after an LDM(2) or STM(2); the statement O11. -/

namespace Sys2Proof.Machine

/-- A fetched instruction runs, unless the hazard of R656 forbids it. -/
theorem runCode_ok {run : Instr → State → Result} {bits : Word} {s : State} {i : Instr} (h : decode (s.code bits) = .ok i) :
    runCode run bits s = if s.bankedUse i then unpredictable .bankedAfterUserList else run i s := by
  simp only [runCode, h]

/-- BKPT alone halts the core, where a debugger in halt mode takes it (R345). -/
theorem haltsOn_iff {s : State} {i : Instr} : s.haltsOn i = true ↔
    (∃ b12 b4, i = .bkpt b12 b4) ∧ s.params.dbgen = true ∧ s.dbg.monitor = false ∧ s.dbg.takesBkpt = true := by
  rw [← bkptHalts_iff]
  constructor
  · intro h
    unfold State.haltsOn at h
    split at h
    · exact ⟨⟨_, _, rfl⟩, h⟩
    · cases h
  · rintro ⟨⟨b12, b4, rfl⟩, h⟩
    exact h

/-- Under the mark and with its condition passed, an instruction meets the hazard when it names a banked register and does not halt
the core (R656, R345). -/
theorem bankedUse_of_hazard {s : State} {i : Instr} (hmark : s.bankHazard = true)
    (hc : s.cpsr.passes (accessed s.cpsr.m i).1 = true) :
    s.bankedUse i = (!s.haltsOn i && (accessed s.cpsr.m i).2.any (isBanked s.cpsr.m)) := by
  simp only [State.bankedUse, hmark, hc, Bool.true_and]

/-- A fetch changes nothing that the hazard depends on. -/
theorem coreFetch_bankedUse {s s1 : State} {f : Fetched} (hf : s.coreFetch = .ok f s1) (i : Instr) :
    s1.bankedUse i = s.bankedUse i := by
  obtain ⟨hframe, -⟩ := coreFetch_framed hf
  rw [hframe]
  rfl

/-- Settles O11: the step runs the fetched code, which asks for the hazard first; the two clauses are those of `bankedUse`. -/
theorem bankedRegisterHazardIsRefused : Obligations.BankedRegisterHazardIsRefused := by
  unfold Obligations.BankedRegisterHazardIsRefused
  intro s s1 f i hs hmark hf he hb hr hd hc halts
  have hstep : step s = if s.bankedUse i then unpredictable .bankedAfterUserList else exec i s1 := by
    rw [step_runCode hs hf he hb hr, runCode_ok hd, coreFetch_bankedUse hf]
  rw [hstep, bankedUse_of_hazard hmark hc]
  refine ⟨fun hbanked hno => ?refused, fun hruns => ?runs⟩
  case refused =>
    have hstays : s.haltsOn i = false := eq_false_of_ne_true (mt haltsOn_iff.mp hno)
    rw [hstays, hbanked]
    rfl
  case runs =>
    rcases hruns with hnone | hhalts
    · rw [hnone, Bool.and_false, if_neg Bool.false_ne_true]
    · rw [haltsOn_iff.mpr hhalts, Bool.not_true, Bool.false_and, if_neg Bool.false_ne_true]

end Sys2Proof.Machine

/-! PROOF. The exchanges of the state, ARM and Thumb (R331, R335, R336, R525, R526): the statement O24. -/

namespace Sys2Proof.Machine

/-- A value that is not refused exchanges the state (R331). -/
theorem writePcExchange_of_ne {v : Word} (s : State) (h : v.toNat % 4 ≠ 2) :
    writePcExchange v s = .next ((s.setT (v.getLsbD 0)).branchTo (clearLow 1 v)) :=
  if_neg (mt (low_two_refused_iff v).mp h)

/-- A value that is aligned for neither state is refused (R331). -/
theorem writePcExchange_of_eq {v : Word} (s : State) (h : v.toNat % 4 = 2) :
    writePcExchange v s = .refused (.unpredictable .target) :=
  if_pos ((low_two_refused_iff v).mpr h)

/-- An exchange after a write of registers: bit 0 selects the state, the rest is the pc (R331). -/
theorem Brings.gives_exchange {dst : List (PhysReg × Word)} {s u : State} (h : Brings dst s u) (v : Word) :
    (v.getLsbD 0 = true → Gives (writePcExchange v u) s (v &&& 0xFFFFFFFE) { s.cpsr with t := true } dst []) ∧
    (v.toNat % 4 = 0 → Gives (writePcExchange v u) s v { s.cpsr with t := false } dst []) ∧
    (v.toNat % 4 = 2 → writePcExchange v u = .refused (.unpredictable .target)) := by
  refine ⟨fun hbit => ?thumb, fun hv => ?arm, writePcExchange_of_eq u⟩
  case thumb =>
    have hodd : v.toNat % 2 = 1 := of_decide_eq_true ((bit_zero_eq v).symm.trans hbit)
    rw [writePcExchange_of_ne u (by omega), hbit, ← h.cpsr]
    exact h.gives_branch { u.cpsr with t := true } _
  case arm =>
    have hbit : v.getLsbD 0 = false := (bit_zero_eq v).trans (decide_eq_false (by omega))
    have heven : clearLow 1 v = v := BitVec.eq_of_toNat_eq (by rw [clearLow_one_toNat]; omega)
    rw [writePcExchange_of_ne u (by omega), hbit, heven, ← h.cpsr]
    exact h.gives_branch { u.cpsr with t := false } _

theorem blxCheck_eq_none {o : BitVec 12} {rm : Reg} : blxCheck o rm = none ↔ o = 0xFFF ∧ rm ≠ 15 := by
  simp [blxCheck, firstOf_eq_none]

/-- A high-register field names r15 with the H bit and all its bits set (R202). -/
theorem hiReg_eq_pc_iff (h : Bool) (r : LReg) : hiReg h r = 15 ↔ h = true ∧ r = 7 := by
  revert h r
  decide

theorem thumbBlxCheck_eq_none {h : Bool} {rm : LReg} {z : BitVec 3} :
    thumbBlxCheck h rm z = none ↔ z = 0 ∧ hiReg h rm ≠ 15 := by
  rw [Ne, hiReg_eq_pc_iff]
  simp [thumbBlxCheck, firstOf_eq_none]

theorem exec_bx {c : Cond} {s : State} (rm : Reg) (hc : s.cpsr.passes c = true) :
    exec (.bx c 0xFFF rm) s = writePcExchange (s.reg rm) s :=
  exec_of_check rfl hc rfl

theorem exec_blxReg {c : Cond} {rm : Reg} {s : State} (hc : s.cpsr.passes c = true) (hrm : rm ≠ 15) :
    exec (.blxReg c 0xFFF rm) s = writePcExchange (s.reg rm) (s.setReg 14 (s.pc + 4)) :=
  exec_of_check rfl hc (blxCheck_eq_none.mpr ⟨rfl, hrm⟩)

theorem exec_tBx (h : Bool) (lm : LReg) (s : State) : exec (.tBx h lm 0) s = writePcExchange (s.reg (hiReg h lm)) s := rfl

theorem exec_tBlxReg {h : Bool} {lm : LReg} (s : State) (hlm : hiReg h lm ≠ 15) :
    exec (.tBlxReg h lm 0) s = writePcExchange (s.reg (hiReg h lm)) (s.setReg 14 ((s.pc + 2) ||| 1)) := by
  show guarded (thumbBlxCheck h lm 0) _ = _
  rw [thumbBlxCheck_eq_none.mpr ⟨rfl, hlm⟩, guarded_none]
  rfl

/-- Settles O24: each of the four exchanges with the register as it was before the link register is written. -/
theorem exchangesSelectTheState : Obligations.ExchangesSelectTheState := by
  unfold Obligations.ExchangesSelectTheState
  intro c rm h lm s exchanges
  have exchanges_of_exec {i : Instr} {v : Word} {dst : List (PhysReg × Word)} {u : State}
      (hexec : exec i s = writePcExchange v u) (hu : Brings dst s u) : exchanges i v dst := by
    simp only [exchanges, hexec]
    exact hu.gives_exchange v
  have links (v : Word) : Brings [(s.phys 14, v)] s (s.setReg 14 v) := brings_setReg s (by decide) v
  exact ⟨fun hc => exchanges_of_exec (exec_bx rm hc) (.refl s), fun hc hrm => exchanges_of_exec (exec_blxReg hc hrm) (links _),
    exchanges_of_exec (exec_tBx h lm s) (.refl s), fun hlm => exchanges_of_exec (exec_tBlxReg s hlm) (links _)⟩

end Sys2Proof.Machine

/-! PROOF. The Thumb high-register forms, and the additions to the pc and to the stack pointer (R428 to R431, R435, R438, R441):
the statement O47. -/

namespace Sys2Proof.Machine

theorem hiCheck_eq_none {h1 h2 : Bool} : hiCheck h1 h2 = none ↔ (h1 || h2) = true := by
  cases h1 <;> cases h2 <;> decide

theorem hiCmpCheck_eq_none {h1 h2 : Bool} {rn : LReg} :
    hiCmpCheck h1 h2 rn = none ↔ (h1 || h2) = true ∧ hiReg h1 rn ≠ 15 := by
  rw [Ne, hiReg_eq_pc_iff]
  cases h1 <;> simp [hiCmpCheck, firstOf_eq_none]

/-- A result in a register other than r15, without flags (R428, R438). -/
theorem hiResult_gives {rd : Reg} (v : Word) (s : State) (hrd : rd ≠ 15) :
    Gives (hiResult rd v s) s s.nextAddr s.cpsr [(s.phys rd, v)] [] := by
  rw [hiResult, if_neg hrd]
  exact gives_setReg_advance s v rfl rfl hrd

/-- A result in r15 branches in the same state (R331). -/
theorem hiResult_pc_gives (v : Word) (s : State) : Gives (hiResult 15 v s) s (v &&& 0xFFFFFFFE) s.cpsr [] [] :=
  (Brings.refl s).gives_branch s.cpsr (clearLow 1 v)

/-- A high-register form with at least one high register gives its result (R428, R438). -/
theorem highForm_gives {i : Instr} {h1 h2 : Bool} {rd : Reg} {v : Word} {s : State}
    (hexec : exec i s = guarded (hiCheck h1 h2) (hiResult rd v s)) (hhigh : (h1 || h2) = true) :
    (rd ≠ 15 → Computes i s s.cpsr [(s.phys rd, v)]) ∧ (rd = 15 → Gives (exec i s) s (v &&& 0xFFFFFFFE) s.cpsr [] []) := by
  rw [Computes, hexec, hiCheck_eq_none.mpr hhigh, guarded_none]
  refine ⟨hiResult_gives v s, ?_⟩
  rintro rfl
  exact hiResult_pc_gives v s

/-- CMP(3) writes the flags of its subtraction (R441). -/
theorem tCmpHi_computes {h1 h2 : Bool} (rm : LReg) {rd : LReg} (s : State) (hhigh : (h1 || h2) = true)
    (hrd : hiReg h1 rd ≠ 15) : Computes (.tCmpHi h1 h2 rm rd) s
      (flagsSub true s.cpsr (s.reg (hiReg h1 rd)) (s.reg (hiReg h2 rm)) false) [] := by
  show Gives (guarded (hiCmpCheck h1 h2 rd) _) _ _ _ _ _
  rw [hiCmpCheck_eq_none.mpr ⟨hhigh, hrd⟩, guarded_none]
  exact dataCompare_gives .cmp _ (s.plain _) s

/-- Settles O47: the high-register forms, then the additions, whose immediates are products. -/
theorem thumbHighRegistersAndStackPointer : Obligations.ThumbHighRegistersAndStackPointer := by
  unfold Obligations.ThumbHighRegistersAndStackPointer
  intro h1 h2 rm rd imm i7 s d m gives
  have h8 : scaled 2 imm = imm.setWidth 32 * 4 := scaled_eq 2 imm
  have h7 : scaled 2 i7 = i7.setWidth 32 * 4 := scaled_eq 2 i7
  rw [← h8, ← h7]
  have low (v : Word) : Gives (hiResult rd.reg v s) s s.nextAddr s.cpsr [(s.phys rd.reg, v)] [] :=
    hiResult_gives v s (low_ne_pc rd)
  have sp (v : Word) : Gives (hiResult 13 v s) s s.nextAddr s.cpsr [(s.phys 13, v)] [] := hiResult_gives v s (by decide)
  exact ⟨highForm_gives rfl, highForm_gives rfl, tCmpHi_computes rm s, low _, low _, sp _, sp _⟩

end Sys2Proof.Machine

/-! PROOF. Swaps that complete (R353, R396, R397), and PLD (R378): the statements O38 and O34. -/

namespace Sys2Proof.Machine

/-! ### Swaps (R396, R397) -/

/-- The check of a swap refuses r15 as its destination (R396). -/
theorem swapCheck_rd {rn rd rm : Reg} {z : BitVec 4} (h : swapCheck rn rd z rm = none) : rd ≠ 15 := by
  have hpc := firstOf_none h (rn == 15 || rd == 15 || rm == 15, .pcOperand) (by simp)
  rw [Bool.or_eq_false_iff, Bool.or_eq_false_iff, beq_eq_false_iff_ne, beq_eq_false_iff_ne] at hpc
  obtain ⟨⟨-, hrd⟩, -⟩ := hpc
  exact hrd

/-- A swap both of whose halves complete, with no other agent between them: the register takes what memory held, and memory the
register that is stored (R148, R396). -/
theorem swapData_gives {s : State} {k : LoadKind} {rn rd rm : Reg} (hrd : rd ≠ 15) (hc : s.Clean) (hin : s.inside = [])
    (hread : s.Answers .swapRead k.size s.priv (s.reg rn)) (hwrite : s.Answers .swapWrite k.size s.priv (s.reg rn)) :
    Gives (swapData k rn rd rm s) s s.nextAddr s.cpsr
      [(s.phys rd, k.extend (s.reg rn) (s.valueAt k.size (s.reg rn)))] [⟨s.reg rn, k.size, s.reg rm⟩] := by
  obtain ⟨t, hload, hr⟩ := loadData_completes (swap := true) hc hread
  have hpause : t.swapPause (s.reg rn) = .ok () t := pause_none _ _ (hr.frame.inside.trans hin)
  obtain ⟨b, u, hstore, hw⟩ := storeData_completes (swap := true) false (s.reg rm) (hr.clean hc) (hr.frame.answers hwrite)
  have hswap : swapData k rn rd rm s =
      .next (u.setReg rd (k.extend (s.reg rn) (s.valueAt k.size (s.reg rn)))).advance := by
    simp only [swapData, hload, hpause, hstore, Acc.finish, Acc.bind]
  rw [hswap]
  exact (((hr.writes hc).append hw nofun).done.setReg _ hrd List.not_mem_nil).gives_advance false

/-- Settles O38: both forms are a swap of their size; a byte comes zero-extended, a word rotated. -/
theorem swapsExchangeMemory : Obligations.SwapsExchangeMemory := by
  unfold Obligations.SwapsExchangeMemory
  intro c rn rd rm s hc hclean hin
  refine ⟨fun hcheck hread hwrite => ?_, fun hcheck hread hwrite => ?_⟩
  · rw [exec_of_check rfl hc hcheck]
    exact swapData_gives (k := .word) (swapCheck_rd hcheck) hclean hin hread hwrite
  · rw [exec_of_check rfl hc hcheck, ← byte_extend_eq]
    exact swapData_gives (k := .byte) (swapCheck_rd hcheck) hclean hin hread hwrite

/-! ### PLD (R378) -/

/-- An instruction that only advances changes nothing but the pc. -/
theorem computes_of_advance {i : Instr} {s : State} (h : exec i s = .next s.advance) : Computes i s s.cpsr [] := by
  rw [Computes, h]
  exact gives_cpsr_advance s rfl

/-- Settles O34: PLD has no meaning but the advance, in the register form once its offset register is no r15. -/
theorem preloadOnlyAdvances : Obligations.PreloadOnlyAdvances := by
  unfold Obligations.PreloadOnlyAdvances
  intro u rn rm off sa sh s
  refine ⟨computes_of_advance rfl, fun hrm => computes_of_advance ?_, rfl⟩
  show guarded (noPcCheck rm) _ = _
  rw [noPcCheck_none hrm, guarded_none]

end Sys2Proof.Machine

/-! PROOF. Memory and the debug logic (R112, R120 to R130): reads and writes neither look at the debug logic and the input pins nor
change them, so that an access under a watchpoint is the access without one. -/

namespace Sys2Proof.Machine

/-! ### What memory and its buffers show -/

/-- The state with another debug logic and other input pins. -/
def State.withDebug (d : Debug) (p : Pins) (s : State) : State := { s with dbg := d, pins := p }

section
variable (d : Debug) (p : Pins) (s : State)

@[simp] theorem withDebug_ctl : (s.withDebug d p).ctl = s.ctl := rfl
@[simp] theorem withDebug_ahbWB : (s.withDebug d p).ahbWB = s.ahbWB := rfl
@[simp] theorem withDebug_dataPort (a : Word) : (s.withDebug d p).dataPort a = s.dataPort a := rfl
@[simp] theorem withDebug_ahbByte : (s.withDebug d p).ahbByte = s.ahbByte := rfl
@[simp] theorem withDebug_ahbError (k : AhbKind) (a n : Nat) (priv : Bool) :
    (s.withDebug d p).ahbError k a n priv = s.ahbError k a n priv := rfl
@[simp] theorem withDebug_buffered (a : Word) (swap : Bool) : (s.withDebug d p).buffered a swap = s.buffered a swap := rfl
@[simp] theorem withDebug_writeKind (a : Word) (swap : Bool) : (s.withDebug d p).writeKind a swap = s.writeKind a swap := rfl
@[simp] theorem withDebug_tcmWB (m : Tcm) : (s.withDebug d p).tcmWB m = s.tcmWB m := by cases m <;> rfl
@[simp] theorem withDebug_tcmSize (m : Tcm) : (s.withDebug d p).tcmSize m = s.tcmSize m := by cases m <;> rfl
@[simp] theorem withDebug_tcmOrder (m : Tcm) : (s.withDebug d p).tcmOrder m = s.tcmOrder m := by cases m <;> rfl
@[simp] theorem withDebug_tcmOffset (m : Tcm) (a : Nat) : (s.withDebug d p).tcmOffset m a = s.tcmOffset m a := by cases m <;> rfl
@[simp] theorem withDebug_tcmByte (m : Tcm) : (s.withDebug d p).tcmByte m = s.tcmByte m := by cases m <;> rfl
@[simp] theorem withDebug_tcmReadError (m : Tcm) (o n : Nat) :
    (s.withDebug d p).tcmReadError m o n = s.tcmReadError m o n := by cases m <;> rfl
@[simp] theorem withDebug_tcmWriteError (m : Tcm) (o : Nat) :
    (s.withDebug d p).tcmWriteError m o = s.tcmWriteError m o := by cases m <;> rfl

/-! ### The operations on memory -/

@[simp] theorem withDebug_setTcmWB (m : Tcm) (l : List TcmEntry) :
    (s.withDebug d p).setTcmWB m l = (s.setTcmWB m l).withDebug d p := by cases m <;> rfl

@[simp] theorem withDebug_putRam (m : Tcm) (o n : Nat) (v : Word) :
    (s.withDebug d p).putRam m o n v = (s.putRam m o n v).withDebug d p := by
  rw [State.putRam, State.putRam, withDebug_tcmWriteError]
  split <;> cases m <;> rfl

@[simp] theorem withDebug_drainTcm (m : Tcm) : (s.withDebug d p).drainTcm m = (s.drainTcm m).withDebug d p := by
  rw [State.drainTcm, State.drainTcm, withDebug_tcmWB]
  cases s.tcmWB m with
  | nil => rfl
  | cons e r => simp

@[simp] theorem withDebug_drainTcmAll (m : Tcm) : (s.withDebug d p).drainTcmAll m = (s.drainTcmAll m).withDebug d p := by
  rw [State.drainTcmAll, State.drainTcmAll, withDebug_tcmWB, withDebug_setTcmWB]
  refine List.foldl_hom (State.withDebug d p) fun t e => ?_
  exact withDebug_putRam d p t m _ _ _

@[simp] theorem withDebug_orderDrain (m : Tcm) : (s.withDebug d p).orderDrain m = (s.orderDrain m).withDebug d p := by
  simp only [State.orderDrain, withDebug_tcmOrder, withDebug_drainTcmAll, apply_ite (State.withDebug d p)]

@[simp] theorem withDebug_pushTcm (m : Tcm) (e : TcmEntry) :
    (s.withDebug d p).pushTcm m e = (s.pushTcm m e).withDebug d p := by
  simp only [State.pushTcm, withDebug_tcmWB]
  split <;> simp

@[simp] theorem withDebug_putAhb (k : AhbKind) (a n : Nat) (v : Word) (priv : Bool) :
    (s.withDebug d p).putAhb k a n v priv = (s.putAhb k a n v priv).withDebug d p := by
  simp only [State.putAhb, withDebug_ahbError, apply_ite (State.withDebug d p)]
  rfl

@[simp] theorem withDebug_drainAhb : (s.withDebug d p).drainAhb = s.drainAhb.withDebug d p := by
  rw [State.drainAhb, State.drainAhb, withDebug_ahbWB]
  cases s.ahbWB with
  | nil => rfl
  | cons e r => exact withDebug_putAhb d p { s with ahbWB := r } _ _ _ _ _

@[simp] theorem withDebug_drainAhbAll : (s.withDebug d p).drainAhbAll = s.drainAhbAll.withDebug d p := by
  rw [State.drainAhbAll, State.drainAhbAll]
  refine List.foldl_hom (State.withDebug d p) (init := { s with ahbWB := [] }) fun t e => ?_
  exact withDebug_putAhb d p t _ _ _ _ _

@[simp] theorem withDebug_waitAhb (first : Bool) (n : Nat) :
    ∀ s : State, (s.withDebug d p).waitAhb first n = (s.waitAhb first n).withDebug d p := by
  induction n with
  | zero => exact fun _ => rfl
  | succ n ih =>
    intro s
    simp only [State.waitAhb, withDebug_ahbWB, withDebug_drainAhb, ih, apply_ite (State.withDebug d p)]

@[simp] theorem withDebug_pushAhb (e : AhbEntry) : (s.withDebug d p).pushAhb e = (s.pushAhb e).withDebug d p := by
  simp only [State.pushAhb, withDebug_ahbWB, withDebug_waitAhb]
  rfl

/-! ### Reads and writes -/

/-- An access with another debug logic and other pins in the state that it leaves. -/
def Acc.withDebug {α : Type} (d : Debug) (p : Pins) : Acc α → Acc α
  | .ok v s => .ok v (s.withDebug d p)
  | .abort s => .abort (s.withDebug d p)
  | .fault f => .fault f
  | .refused r => .refused r

@[simp] theorem Acc.withDebug_ok {α : Type} (v : α) : (Acc.ok v s).withDebug d p = .ok v (s.withDebug d p) := rfl
@[simp] theorem Acc.withDebug_abort {α : Type} : (Acc.abort s : Acc α).withDebug d p = .abort (s.withDebug d p) := rfl
@[simp] theorem Acc.withDebug_fault {α : Type} (f : Fault) : (Acc.fault f : Acc α).withDebug d p = .fault f := rfl

variable (size : Nat) (priv swap : Bool) (a : Word)

/-- A read neither looks at the debug logic and the pins nor changes them. -/
theorem readData_withDebug :
    readData size priv swap a (s.withDebug d p) = (readData size priv swap a s).withDebug d p := by
  simp only [readData, withDebug_dataPort]
  cases s.dataPort a <;> simp [apply_ite (Acc.withDebug d p)]

/-- A write neither looks at the debug logic and the pins nor changes them. -/
theorem writeData_withDebug (opened : Bool) (v : Word) :
    writeData size priv opened swap a v (s.withDebug d p) = (writeData size priv opened swap a v s).withDebug d p := by
  simp only [writeData, withDebug_dataPort]
  cases s.dataPort a <;> simp [apply_ite (Acc.withDebug d p)]

end

end Sys2Proof.Machine

/-! PROOF. Single loads and stores that a watchpoint matches (R603, R604, R606): in halt mode they complete and latch it, in monitor
debug-mode they take the Data Abort. -/

namespace Sys2Proof.Machine

/-! ### Watched accesses -/

/-- A watchpoint matches the next data access: the debugger's input for it, or the DBGDEWPT pin, of a core whose debug logic is
enabled and that is not halted (R65, R147, R601). -/
def State.WatchMatches (s : State) : Prop :=
  s.dbg.halted = false ∧ s.params.dbgen = true ∧ s.params.fullDebug = true ∧
    (s.dbg.wptMatch.head? = some true ∨ s.pins.dwpt = true)

theorem State.WatchMatches.watchHit {s : State} (h : s.WatchMatches) : s.watchHit = true := by
  obtain ⟨hhalt, hgen, hfull, hmatch⟩ := h
  rw [State.watchHit, State.watchOn, hhalt, hgen, hfull]
  rcases hmatch with hmatch | hpin
  · rw [List.headD_eq_head?_getD, hmatch]
    rfl
  · rw [hpin, Bool.or_true]
    rfl

theorem State.WatchMatches.watched {s : State} (h : s.WatchMatches) : s.watched = true := by
  obtain ⟨hhalt, hgen, hfull, hmatch⟩ := h
  rw [State.watched, State.watchOn, hhalt, hgen, hfull]
  rcases hmatch with hmatch | hpin
  · cases hl : s.dbg.wptMatch with
    | nil => rw [hl] at hmatch; cases hmatch
    | cons b r => rfl
  · rw [hpin, Bool.or_true]
    rfl

/-- The debug logic after an access that a halt-mode watchpoint matched: the debugger's input is used up and the watchpoint is
latched (R65, R604). -/
def Debug.latched (d : Debug) : Debug := { d with wptMatch := d.wptMatch.tail, wptLatch := true }

section
variable {s : State} {size : Nat} {priv swap : Bool} {a : Word} (hw : s.WatchMatches)

/-- The read under a watchpoint is the read without one, but for the debug logic and the pins. -/
theorem readData_popWatch : readData size priv swap a s.popWatch =
    (readData size priv swap a s.unwatched).withDebug s.popWatch.dbg s.pins :=
  readData_withDebug s.popWatch.dbg s.pins s.unwatched size priv swap a

/-- The write under a watchpoint is the write without one, but for the debug logic and the pins. -/
theorem writeData_popWatch (opened : Bool) (v : Word) : writeData size priv opened swap a v s.popWatch =
    (writeData size priv opened swap a v s.unwatched).withDebug s.popWatch.dbg s.pins :=
  writeData_withDebug s.popWatch.dbg s.pins s.unwatched size priv swap a opened v

/-- A latch in halt mode (R604). -/
theorem withDebug_latchWatch {t : State} (hm : s.dbg.monitor = false) :
    (t.withDebug s.popWatch.dbg s.pins).latchWatch = t.withDebug s.dbg.latched s.pins := by
  simp [State.latchWatch, State.withDebug, Debug.latched, hm]

include hw

/-- A load that a halt-mode watchpoint matches completes (R604). -/
theorem loadData_latches {v : Word} {t : State} (hm : s.dbg.monitor = false) (hf : s.alignFault size a = false)
    (h : readData size priv swap a s.unwatched = .ok v t) :
    loadData size priv swap a s = .ok v (t.withDebug s.dbg.latched s.pins) := by
  simp only [loadData, hf, hw.watched, hm, readData_popWatch, h, Acc.withDebug_ok, hw.watchHit, withDebug_latchWatch hm,
    Bool.not_true, Bool.false_and, Bool.false_eq_true, if_false]

/-- A store that a halt-mode watchpoint matches completes (R604). -/
theorem storeData_latches {opened b : Bool} {v : Word} {t : State} (hm : s.dbg.monitor = false) (hf : s.alignFault size a = false)
    (h : writeData size priv opened swap a v s.unwatched = .ok b t) :
    storeData size priv opened swap a v s = .ok b (t.withDebug s.dbg.latched s.pins) := by
  simp only [storeData, hf, hw.watched, hm, writeData_popWatch, h, Acc.withDebug_ok, hw.watchHit, withDebug_latchWatch hm,
    Bool.not_true, Bool.false_and, Bool.false_eq_true, if_false]

/-- A load that a watchpoint matches in monitor debug-mode aborts after the read, with DbgAbt set (R606). -/
theorem loadData_watchAborts {v : Word} {t : State} (hm : s.dbg.monitor = true) (hpin : s.pins.dwpt = false)
    (hf : s.alignFault size a = false) (h : readData size priv swap a s.unwatched = .ok v t) :
    loadData size priv swap a s = .abort (t.withDebug s.popWatch.dbg s.pins).setDbgAbt := by
  simp only [loadData, hf, hw.watched, hm, hpin, readData_popWatch, h, Acc.withDebug_ok, hw.watchHit,
    Bool.not_true, Bool.and_false, Bool.false_eq_true, if_false, if_true]

/-- A store that a watchpoint matches in monitor debug-mode aborts, with DbgAbt set, and reaches memory or not (R606, U21). -/
theorem storeData_watchAborts {opened b : Bool} {v : Word} {t : State} (hm : s.dbg.monitor = true) (hpin : s.pins.dwpt = false)
    (hf : s.alignFault size a = false) (h : writeData size priv opened swap a v s.unwatched = .ok b t) :
    ∃ n, ∃ u, (u = t ∨ u = s.unwatched) ∧
      storeData size priv opened swap a v s = .abort (State.withDebug s.popWatch.dbg s.pins { u with free := n }).setDbgAbt := by
  simp only [storeData, hf, hw.watched, hm, hpin, writeData_popWatch, h, Acc.withDebug_ok, hw.watchHit,
    Bool.not_true, Bool.and_false, Bool.false_eq_true, if_false, if_true]
  by_cases hbit : Config.freeBit (t.withDebug s.popWatch.dbg s.pins).free = true
  · rw [if_pos hbit]
    exact ⟨t.free + 1, t, .inl rfl, rfl⟩
  · rw [if_neg hbit]
    exact ⟨t.free + 1, s.unwatched, .inr rfl, rfl⟩

end

/-! ### The Data Abort of a watchpoint (R606) -/

/-- What an instruction that lost nothing but `lost` and `touched` leaves, whatever the debug logic, the pins and DbgAbt are. -/
theorem Spoiled.watchAborted {lost : List PhysReg} {touched : List (Word × Nat)} {s u : State} (h : Spoiled lost touched s u)
    (d : Debug) (p : Pins) : Spoiled lost touched (s.withDebug d p).setDbgAbt (u.withDebug d p).setDbgAbt := by
  obtain ⟨hpc, hcpsr, hspsrs, hun, hregs, hmem, hsys⟩ := h
  refine ⟨hpc, hcpsr, hspsrs, hun, hregs, hmem, ?_⟩
  rw [SystemStays] at hsys ⊢
  rw [hsys]
  rfl

/-- A store spoils no byte but its own; free values may have been drawn. -/
theorem Writes.spoiled_free {a v : Word} {size : Nat} {s t : State} (h : Writes [⟨a, size, v⟩] s t) (n : Nat) :
    Spoiled [] [(a, size)] s { t with free := n } := by
  obtain ⟨hframe, ⟨-, hmem⟩, -⟩ := h
  refine MemFrame.spoiled (t := { t with free := n }) ?_ (fun q hq => hmem q fun w hw => ?_) []
  · rw [MemFrame, hframe]
  · obtain rfl := List.mem_singleton.mp hw
    exact hq _ (List.mem_singleton_self _)

/-- The entry of the Data Abort after an access that failed (R545). -/
theorem Spoiled.aborts_of_enters {lost : List PhysReg} {touched : List (Word × Nat)} {r : Result} {s u : State}
    (h : Spoiled lost touched s u) (hr : Enters r u .dataAbort) : Aborts r s lost touched := by
  obtain ⟨t, hnext, hpc, hcpsr, hsaved, hkept, ⟨hlink, hothers⟩, ⟨-, hmem⟩, hun, hsys⟩ := hr
  have hbase : u.vectorBase = s.vectorBase := by rw [State.vectorBase, h.system, State.vectorBase]
  refine ⟨t, hnext, by rw [hpc, hbase]; rfl, ?_, ?_, ?_, fun q hne hq => ?_, fun q hq => ?_, hun.trans h.unrecoverable, ?_⟩
  · rw [hcpsr, h.cpsr, dataAbort_fiq]
    rfl
  · rw [← h.spsrs, ← h.cpsr]
    have habt : t.spsr .abt = u.cpsr := hsaved
    calc t.spsrs = ⟨t.spsr .fiq, t.spsr .irq, t.spsr .svc, t.spsr .abt, t.spsr .und⟩ := rfl
      _ = { u.spsrs with abt := u.cpsr } := by
        rw [hkept .fiq nofun, hkept .irq nofun, hkept .svc nofun, hkept .und nofun, habt]
        rfl
  · rw [← h.pc]
    exact hlink _ (List.mem_singleton_self _)
  · rw [hothers q fun hm => hne (List.mem_singleton.mp hm), h.regs q hq]
  · rw [hmem q nofun, h.memory q hq]
  · have hsys' := h.system
    rw [SystemStays] at hsys hsys' ⊢
    rw [hsys, hsys']

/-- A core that is not halted and has no watchpoint latched takes the Data Abort as its exception alone (R545). -/
theorem dataAbort_of_unlatched {u : State} (hh : u.dbg.halted = false) (hl : u.dbg.wptLatch = false) :
    u.dataAbort = u.takeException .dataAbort := by
  rcases dataAbort_cases u with ⟨hhalt, -⟩ | ⟨-, -, h⟩ | ⟨-, hlatch, -⟩
  · rw [hh] at hhalt
    cases hhalt
  · exact h
  · rw [hl] at hlatch
    cases hlatch

/-! ### Single loads and stores as their one access (R350, R480) -/

/-- The meaning `run` is a single load or store by the access `x`; the pc is loaded as a word. -/
inductive SingleAccess : (State → Result) → Access → Prop
  | load (k : LoadKind) (priv : Bool) (rn rd : Reg) (y : Address) (hrd : rd = 15 → k = .word) :
      SingleAccess (loadSingle k priv rn rd y) ⟨.read, k.size, priv, y.addr⟩
  | store (size : Nat) (priv : Bool) (rn : Reg) (y : Address) (v : Word) :
      SingleAccess (storeSingle size priv rn y v) ⟨.write, size, priv, y.addr⟩

/-- A Thumb load at an aligned address is a single load (R480). -/
theorem thumbLoad_of_aligned {s : State} {k : LoadKind} {a : Word} (rd : LReg) (h : misaligned k.size a = false) :
    thumbLoad k rd a s = loadSingle k s.priv 0 rd.reg (plainAddress a) s := by
  rw [thumbLoad, thumbRefused_of_aligned (bne_eq_false_iff_eq.mp h)]
  rfl

/-- A Thumb store at an aligned address is a single store (R480). -/
theorem thumbStore_of_aligned {s : State} {size : Nat} {a : Word} (rd : LReg) (h : misaligned size a = false) :
    thumbStore size rd a s = storeSingle size s.priv 0 (plainAddress a) (s.reg rd.reg) s := by
  rw [thumbStore, thumbRefused_of_aligned (bne_eq_false_iff_eq.mp h)]
  rfl

section
variable {i : Instr} {s : State} {x : Access} (hx : s.access i = some x) (hcheck : i.check = none)
  (hc : s.cpsr.passes (accessed s.cpsr.m i).1 = true) (hal : misaligned x.size x.addr = false)
include hx hcheck hc hal

/-- Every instruction with one aligned data access is a single load or store by it, watched or not. -/
theorem exec_of_access :
    ∃ run, SingleAccess run x ∧ exec i s = run s ∧ exec i s.unwatched = run s.unwatched := by
  cases i
  case ldrImm | ldrReg | ldrtImm | ldrtReg =>
    obtain rfl := Option.some.inj hx
    refine ⟨loadSingle _ _ _ _ _, ?_, exec_of_check rfl hc hcheck, exec_of_check rfl hc hcheck⟩
    exact .load _ _ _ _ _ fun _ => rfl
  case ldrbImm | ldrbtImm =>
    obtain rfl := Option.some.inj hx
    refine ⟨loadSingle _ _ _ _ _, ?_, exec_of_check rfl hc hcheck, exec_of_check rfl hc hcheck⟩
    exact .load _ _ _ _ _ fun h => absurd h (mode2Imm_rd hcheck)
  case ldrbReg | ldrbtReg =>
    obtain rfl := Option.some.inj hx
    refine ⟨loadSingle _ _ _ _ _, ?_, exec_of_check rfl hc hcheck, exec_of_check rfl hc hcheck⟩
    exact .load _ _ _ _ _ fun h => absurd h (mode2Reg_rd hcheck)
  case ldrhImm | ldrsbImm | ldrshImm =>
    obtain rfl := Option.some.inj hx
    refine ⟨loadSingle _ _ _ _ _, ?_, exec_of_check rfl hc hcheck, exec_of_check rfl hc hcheck⟩
    exact .load _ _ _ _ _ fun h => absurd h (mode3Imm_rd hcheck)
  case ldrhReg | ldrsbReg | ldrshReg =>
    obtain rfl := Option.some.inj hx
    refine ⟨loadSingle _ _ _ _ _, ?_, exec_of_check rfl hc hcheck, exec_of_check rfl hc hcheck⟩
    exact .load _ _ _ _ _ fun h => absurd h (mode3Reg_rd hcheck)
  case strImm | strReg | strbImm | strbReg | strtImm | strtReg | strbtImm | strbtReg | strhImm | strhReg =>
    obtain rfl := Option.some.inj hx
    exact ⟨_, .store _ _ _ _ _, exec_of_check rfl hc hcheck, exec_of_check rfl hc hcheck⟩
  case tLdrImm | tLdrReg | tLdrPc | tLdrSp | tLdrbImm | tLdrbReg | tLdrhImm | tLdrhReg | tLdrsb | tLdrsh =>
    obtain rfl := Option.some.inj hx
    refine ⟨loadSingle _ _ _ _ _, ?_, thumbLoad_of_aligned _ hal, thumbLoad_of_aligned _ hal⟩
    exact .load _ _ _ _ (plainAddress _) fun h => absurd h (low_ne_pc _)
  case tStrImm | tStrReg | tStrSp | tStrbImm | tStrbReg | tStrhImm | tStrhReg =>
    obtain rfl := Option.some.inj hx
    exact ⟨_, .store _ _ _ (plainAddress _) _, thumbStore_of_aligned _ hal, thumbStore_of_aligned _ hal⟩
  all_goals cases hx

end

/-! ### The rest of an instruction and the debug logic -/

section
variable (d : Debug) (p : Pins) (s : State)

theorem withDebug_advance : (s.withDebug d p).advance = s.advance.withDebug d p := rfl

theorem withDebug_setReg (r : Reg) (v : Word) : (s.withDebug d p).setReg r v = (s.setReg r v).withDebug d p := by
  rw [State.setReg, State.setReg, apply_ite (State.withDebug d p)]
  rfl

theorem withDebug_backTo (rn : Reg) (wb : Option Word) :
    (s.withDebug d p).backTo rn wb = (s.backTo rn wb).withDebug d p := by
  cases wb with
  | none => rfl
  | some w => exact withDebug_setReg d p s rn w

theorem withDebug_loadPc (v : Word) : loadPc v (s.withDebug d p) = mapNext (State.withDebug d p) (loadPc v s) := by
  rw [loadPc, loadPc, writePcExchange, writePcExchange]
  simp only [apply_ite (mapNext (State.withDebug d p))]
  rfl

end

/-- What a single load does once its access has brought `v`: the write-back, then the pc or the register and the advance (R350). -/
def loadEnd (k : LoadKind) (rn rd : Reg) (x : Address) (v : Word) (s : State) : Result :=
  if rd = 15 then loadPc (k.extend x.addr v) (s.backTo rn x.wb)
  else .next ((s.backTo rn x.wb).setReg rd (k.extend x.addr v)).advance

theorem withDebug_loadEnd (d : Debug) (p : Pins) (k : LoadKind) (rn rd : Reg) (x : Address) (v : Word) (s : State) :
    loadEnd k rn rd x v (s.withDebug d p) = mapNext (State.withDebug d p) (loadEnd k rn rd x v s) := by
  simp only [loadEnd, withDebug_backTo, withDebug_loadPc, withDebug_setReg, withDebug_advance, apply_ite (mapNext _)]
  rfl

section
variable {k : LoadKind} {priv : Bool} {rn rd : Reg} {x : Address} {s : State}

/-- An aligned load goes as its access does (R118, R350). -/
theorem loadSingle_of_aligned (hrd : rd = 15 → k = .word) (hal : misaligned k.size x.addr = false) :
    loadSingle k priv rn rd x s = (loadData k.size priv false x.addr s).finish State.dataAbort (loadEnd k rn rd x) := by
  have hpc : (rd == 15 && !s.ctl.a && misaligned 4 x.addr) = false := by
    by_cases h15 : rd = 15
    · obtain rfl := hrd h15
      rw [show misaligned 4 x.addr = false from hal, Bool.and_false]
    · rw [beq_false_of_ne h15, Bool.false_and, Bool.false_and]
  rw [loadSingle, halfRefused_of_fits hal, hpc]
  rfl

/-- An aligned store goes as its access does (R118, R350). -/
theorem storeSingle_of_aligned {size : Nat} {v : Word} (hal : misaligned size x.addr = false) :
    storeSingle size priv rn x v s =
      (storeData size priv false false x.addr v s).finish State.dataAbort fun _ t => .next (t.backTo rn x.wb).advance := by
  rw [storeSingle, halfRefused_of_fits hal]
  rfl

end

section
variable {run : State → Result} {x : Access} {s : State} (h : SingleAccess run x) (hw : s.WatchMatches) (hc : s.Clean)
  (ha : s.unwatched.Answers x.kind x.size x.priv x.addr) (hal : misaligned x.size x.addr = false)
include h hw hc ha hal

/-- A halt-mode watchpoint changes of a single load or store nothing but that it is latched (R604). -/
theorem SingleAccess.latches (hm : s.dbg.monitor = false) :
    run s = mapNext (State.withDebug s.dbg.latched s.pins) (run s.unwatched) := by
  have ⟨hfault, hquiet, _⟩ := ha
  cases h with
  | load k priv rn rd y hrd =>
    obtain ⟨t, hread, -⟩ := readData_completes (s := s.unwatched) (swap := false) hc ha
    have hplain := (loadData_eq_readData priv false hfault hquiet).trans hread
    rw [loadSingle_of_aligned hrd hal, loadSingle_of_aligned hrd hal, loadData_latches hw hm hfault hread, hplain]
    exact withDebug_loadEnd ..
  | store size priv rn y v =>
    obtain ⟨b, t, hwrite, -⟩ := writeData_completes (s := s.unwatched) (swap := false) false v hc ha
    have hplain := (storeData_eq_writeData priv false false v hfault hquiet).trans hwrite
    rw [storeSingle_of_aligned hal, storeSingle_of_aligned hal, storeData_latches hw hm hfault hwrite, hplain]
    simp only [Acc.finish, withDebug_backTo, withDebug_advance, mapNext]

/-- In monitor debug-mode a single load or store that a watchpoint matches takes the Data Abort with DbgAbt set (R606, U21). -/
theorem SingleAccess.watchAborts (hm : s.dbg.monitor = true) (hl : s.dbg.wptLatch = false) (hpin : s.pins.dwpt = false) :
    Aborts (run s) s.popWatch.setDbgAbt [] (if x.kind = .write then [(x.addr, x.size)] else []) := by
  have ⟨hhalt, _⟩ := hw
  have ⟨hfault, _⟩ := ha
  have habort {touched : List (Word × Nat)} {u : State} (hu : Spoiled [] touched s.unwatched u) :
      Aborts (.next (u.withDebug s.popWatch.dbg s.pins).setDbgAbt.dataAbort) s.popWatch.setDbgAbt [] touched := by
    have hdbg : (u.withDebug s.popWatch.dbg s.pins).setDbgAbt.dbg = s.popWatch.dbg := rfl
    rw [dataAbort_of_unlatched (hdbg ▸ hhalt) (hdbg ▸ hl)]
    exact (hu.watchAborted _ _).aborts_of_enters (enters_takeException _ _)
  cases h with
  | load k priv rn rd y hrd =>
    obtain ⟨t, hread, hr⟩ := readData_completes (s := s.unwatched) (swap := false) hc ha
    rw [loadSingle_of_aligned hrd hal, loadData_watchAborts hw hm hpin hfault hread]
    exact habort (hr.spoiled [])
  | store size priv rn y v =>
    obtain ⟨b, t, hwrite, hs⟩ := writeData_completes (s := s.unwatched) (swap := false) false v hc ha
    obtain ⟨n, u, hu, hstore⟩ := storeData_watchAborts hw hm hpin hfault hwrite
    rw [storeSingle_of_aligned hal, hstore]
    refine habort ?_
    rcases hu with rfl | rfl
    · exact hs.spoiled_free n
    · exact MemFrame.spoiled (s := s.unwatched) (t := { s.unwatched with free := n }) rfl (fun _ _ => rfl) []

end

end Sys2Proof.Machine

/-! PROOF. Debug requests, and the step after a watchpointed instruction (R566, R602, R604, R605, R606): the statement O60. -/

namespace Sys2Proof.Machine

/-! ### Debug requests (R602, R605) -/

/-- A debug request is that of the pin or of the Debug Control Register, with DBGEN HIGH (R605, R610). -/
theorem debugRequest_iff {s : State} :
    s.debugRequest = true ↔ s.params.dbgen = true ∧ (s.pins.edbgrq = true ∨ s.dbg.request = true) := by
  rw [State.debugRequest, Bool.and_eq_true, Bool.or_eq_true]

/-- A halted core does nothing (R602). -/
theorem step_halted {s : State} (hf : s.forbidden = none) (ha : s.agenda = []) (hh : s.dbg.halted = true) : step s = .next s := by
  rw [step_coreTurn hf ha, coreTurn, coreTurnWith, hh, Bool.or_true]
  rfl

/-- A debug request halts the core before anything else (R605, R566). -/
theorem step_debugRequest {s : State} (hf : s.forbidden = none) (ha : s.agenda = []) (hu : s.unrecoverable = false)
    (hh : s.dbg.halted = false) (hr : s.debugRequest = true) : step s = .next s.enterDebug := by
  rw [step_coreTurn hf ha, coreTurn, coreTurnWith, hu, hh, hr]
  rfl

/-- A debug request in monitor debug-mode is what that mode forbids (R605, U20). -/
theorem monitorStop_request {s : State} (he : s.externalHigh = false) (hm : s.dbg.monitor = true) (hr : s.debugRequest = true) :
    s.monitorStop = some .requestInMonitor := by
  rw [State.monitorStop, he, hm, hr]
  rfl

theorem inputStop_of_monitor {s : State} {u : Unpred} (h : s.monitorStop = some u) : s.inputStop = some u := by
  rw [State.inputStop, h]

/-- With both pins LOW there is no external breakpoint or watchpoint (R147). -/
theorem externalHigh_of_low {s : State} (hi : s.pins.ibkpt = false) (hd : s.pins.dwpt = false) : s.externalHigh = false := by
  rw [State.externalHigh, hi, hd, Bool.or_self, Bool.and_false]

/-- A turn of the environment that the mode forbids is refused (R605, U20). -/
theorem step_setPins_monitor {s : State} {p : Pins} {r : List Turn} {u : Unpred} (hf : s.forbidden = none)
    (ha : s.agenda = .bus (.setPins p) :: r) (h : (s.drivePins p).monitorStop = some u) : step s = .refused (.unpredictable u) := by
  have hin : (State.drivePins { s with agenda := r } p).inputStop = some u := inputStop_of_monitor h
  simp only [step, hf, ha, guarded, takeTurn, busTurn, setPins, hin]
  rfl

/-- A write of the Debug Control Register that sets both its bits is refused (R605, U20). -/
theorem debugControl_refused {s : State} {k : Bool} (hh : s.dbg.halted = false) (hl : s.dbg.wptLatch = false)
    (hgen : s.params.dbgen = true) (hi : s.pins.ibkpt = false) (hd : s.pins.dwpt = false) :
    debugControl true true k s = .refused (.unpredictable .requestInMonitor) := by
  have hstop : State.monitorStop { s with dbg := { s.dbg with monitor := true, request := true, takesBkpt := k } } =
      some .requestInMonitor :=
    monitorStop_request (externalHigh_of_low hi hd) rfl (debugRequest_iff.mpr ⟨hgen, .inr rfl⟩)
  have hmixed : (true && (s.dbg.halted || s.dbg.wptLatch)) = false := by
    rw [hh, hl]
    rfl
  rw [debugControl]
  dsimp only
  rw [hmixed, hstop]
  rfl

/-! ### The instruction after a watchpointed one (R604) -/

/-- The interrupt entry of a core that runs on or not by FIFOFULL is that of the exception (R568, R612). -/
theorem takeInterrupt_eq_takeException (e : Exc) (s : State) : takeInterrupt e s = State.takeException e { s with
    standby := false, etmRun := if s.pins.fifofull then some e.mode.bits else none, dbg := { s.dbg with bkptMatch := false } } := by
  simp only [takeInterrupt, takeException_eq]
  cases e <;> rfl

/-- With a watchpoint latched, the step executes the next instruction and then brings debug state (R604, R566). -/
theorem step_latched {s s1 t : State} {f : Fetched} {i : Instr} (hl : s.dbg.wptLatch = true) (hm : s.dbg.monitor = false)
    (hs : s.unlatched.Undisturbed) (hf : s.unlatched.coreFetch = .ok f s1) (he : f.err = false) (hb : s1.breakHit f = false)
    (hr : s.unlatched.staleRoute = false) (hd : decode (s1.code f.bits) = .ok i) (hbank : s1.bankedUse i = false)
    (ht : exec i s1 = .next t) : step s = .next t.endWatched := by
  obtain ⟨hforb, hag, hun, hhalt, hreq, hfifo, hetm, hstand, htop, hfiq, hirq, -⟩ := hs
  calc step s = coreTurnWith exec s := step_coreTurn hforb hag
    _ = boundary exec s := coreTurnWith_eq hun hhalt hreq hfifo hetm hstand
    _ = mapNext State.endWatched (runInstruction exec s.unlatched) := by
      rw [boundary_eq (s := s) htop (by rw [hm, Bool.and_false]) hfiq hirq, if_pos hl]
    _ = mapNext State.endWatched (exec i s1) := by
      rw [runInstruction_eq hr hf he hb, runCode_ok hd, hbank, if_neg Bool.false_ne_true]
    _ = .next t.endWatched := by rw [ht]; rfl

/-- Where no interrupt can be entered, the latched watchpoint only halts the core (R604, R46). -/
theorem endWatched_of_none {t : State} (hh : t.dbg.halted = false)
    (h : t.takesFiq = false ∧ t.takesIrq = false ∨ t.pastTop = true ∨ t.unrecoverable = true) :
    t.endWatched = t.haltAt (t.pc + BitVec.ofNat 32 (5 * t.instrLen)) := by
  have hpend : t.enterPending = t := by
    unfold State.enterPending
    split
    next e he =>
      refine if_pos ?_
      rcases h with ⟨hfiq, hirq⟩ | hstop
      · rw [pendingInterrupt_none hfiq hirq] at he
        cases he
      · exact Bool.or_eq_true_iff.mpr hstop
    next => rfl
  rw [State.endWatched, hh, if_neg Bool.false_ne_true, hpend, enterWatched_eq hh]

/-- A pending interrupt is entered, and then the latched watchpoint halts the core, five ARM instructions on (R604). -/
theorem endWatched_enters {t : State} {e : Exc} (hh : t.dbg.halted = false) (hp : t.pastTop = false) (hu : t.unrecoverable = false)
    (he : t.pendingInterrupt = some e) :
    ∃ u, t.endWatched = { u with dbg := u.dbg.afterEntry false (u.pc + 20) } ∧
      Enters (.next u) { t with standby := false, dbg := { t.dbg with bkptMatch := false },
                                etmRun := if t.pins.fifofull then some e.mode.bits else none } e := by
  refine ⟨takeInterrupt e t, ?_, ?_⟩
  · have hhalt : (takeInterrupt e t).dbg.halted = false := by
      rw [takeInterrupt_eq_takeException, takeException_eq]
      exact hh
    rw [endWatched_pending hh hp hu he, enterWatched_eq hhalt]
    rfl
  · rw [takeInterrupt_eq_takeException]
    exact enters_takeException _ e

/-! ### The statement -/

/-- Settles O60: debug requests, their refusal in monitor debug-mode, the watched access, and the instruction after it. -/
theorem debugRequestsAndWatchpointsTakeEffect : Obligations.DebugRequestsAndWatchpointsTakeEffect := by
  unfold Obligations.DebugRequestsAndWatchpointsTakeEffect
  refine ⟨fun s hf ha hu => ⟨step_halted hf ha, fun hh hgen hreq _ => ⟨Config.freeWord s.free, ?_⟩⟩,
    fun s hlegal hext hgen hm hreq => ?_, fun s r hf hgen => ⟨fun p ha hm hreq hi hd => ?_, fun k ha hh hl hi hd => ?_⟩,
    fun i s x hx hcheck hc hl hh hgen hfull hmatch ha hal hclean => ?_, ?_⟩
  · exact step_debugRequest hf ha hu hh (debugRequest_iff.mpr ⟨hgen, hreq⟩)
  · refine step_refused ?_
    rw [State.forbidden, if_pos hlegal]
    exact inputStop_of_monitor (monitorStop_request hext hm (debugRequest_iff.mpr ⟨hgen, hreq⟩))
  · exact step_setPins_monitor hf ha (monitorStop_request (s := s.drivePins p) (externalHigh_of_low hi hd) hm
      (debugRequest_iff.mpr ⟨hgen, .inl hreq⟩))
  · simp only [step, hf, ha, guarded, takeTurn]
    exact debugControl_refused hh hl hgen hi hd
  · have hw : s.WatchMatches := ⟨hh, hgen, hfull, hmatch⟩
    obtain ⟨run, hrun, hexec, hplain⟩ := exec_of_access hx hcheck hc hal
    refine ⟨fun hm t ht => ?_, fun hm hpin => ?_⟩
    · rw [hexec, hrun.latches hw hclean ha hal hm, ← hplain, ht]
      rfl
    · rw [hexec]
      exact hrun.watchAborts hw hclean ha hal hm hl hpin
  · intro s s1 f i hl hm s0 hs hf he hb hr hd hbank t ht hh entered
    have hstep : step s = .next t.endWatched := step_latched hl hm hs hf he hb hr hd hbank ht
    have enters {e : Exc} (hp : t.pastTop = false) (hu : t.unrecoverable = false) (hpend : t.pendingInterrupt = some e) :
        entered e := by
      obtain ⟨u, hend, henter⟩ := endWatched_enters hh hp hu hpend
      exact ⟨u, by rw [hstep, hend], henter⟩
    refine ⟨fun hnone => ?_, fun hp hu hfiq => enters hp hu (pendingInterrupt_fiq hfiq),
      fun hp hu hfiq hirq => enters hp hu (pendingInterrupt_irq hfiq hirq)⟩
    rw [hstep, endWatched_of_none hh hnone]
    rfl

end Sys2Proof.Machine

/-! PROOF. Load and store multiple without a branch (R385, R386, R388, R389, R391, R392, R656): the registers that a list fills,
the words that a list stores at places of their own; the statements O35 and O37. -/

namespace Sys2Proof.Machine

/-! ### The registers that a load multiple fills (R385, R388, R389) -/

/-- Different registers are in different places of the User bank (R32). -/
theorem userReg_injective (r q : Reg) (hr : r ≠ 15) (hq : q ≠ 15) (h : userReg r = userReg q) : r = q :=
  physReg_injective 0b10000 r q hr hq h

/-- A load multiple without r15 that completes: the listed registers, then the write-back and the advance (R385, R388). -/
theorem loadMultiple_fills {s : State} {rn : Reg} {list : BitVec 16} {start : Word} {place : Reg → PhysReg} (hazard : Bool)
    (wb : Option Word) (writePc : Word → State → Result)
    (hplace : ∀ r q : Reg, r ≠ 15 → q ≠ 15 → place r = place q → r = q) (h15 : list.getLsbD 15 = false) (hc : s.Clean)
    (hall : s.AnswersAll .read (listed list).length start) :
    ∃ u, loadMultiple place hazard rn list start wb writePc s = .next { (u.backTo rn wb).advance with bankHazard := hazard } ∧
      Done (s.loaded place list start) [] s u := by
  obtain ⟨hin, hans⟩ := hall
  obtain ⟨t, hload, hr⟩ := loadWords_completes (listed list).length start s hin hc hans
  refine ⟨t.writeRegs place (listed list) (s.wordsAt (listed list).length start), ?_, ?_⟩
  · simp only [loadMultiple, hload, Acc.finish, h15, Bool.false_eq_true, if_false]
    rfl
  · rw [loaded_eq_placed]
    exact Done.writeRegs hplace (listed list) _ [] t (listed_nodup list) (fun _ _ _ => List.not_mem_nil) (hr.writes hc).done

/-- A list of LDM(1) without r15, or of LDM(2). -/
theorem append_spares_pc (l : BitVec 15) : (0#1 ++ l : BitVec 16).getLsbD 15 = false :=
  BitVec.getLsbD_append (x := 0#1) (y := l) (i := 15)

/-- Settles O35: the words of the transfer fill the registers of the list, each in a place of its own, in the current mode's bank
and in the User bank. -/
theorem loadMultipleFillsTheList : Obligations.LoadMultipleFillsTheList := by
  unfold Obligations.LoadMultipleFillsTheList
  intro c p u w rn l s hc list n start i j
  have h15 : list.getLsbD 15 = false := append_spares_pc l
  have hexec (h : j.check = none) : exec j s = bankedModeOnly s (loadMultiple userReg true rn list start none loadPc s) :=
    exec_of_check rfl hc h
  refine ⟨fun h hcl hall => ?ldm1, fun h hm hcl hall => ?ldm2, fun h hm => ?refused⟩
  case ldm1 =>
    obtain ⟨t, hload, hdone⟩ := loadMultiple_fills (rn := rn) false (backIf w u n (s.reg rn)) loadPc
      (physReg_injective s.cpsr.m) h15 hcl hall
    rw [show exec i s = _ from (exec_of_check rfl hc h).trans hload]
    exact (hdone.loaded_back (ldmCheck_base h)).gives_advance false
  case ldm2 =>
    obtain ⟨e, he⟩ := Option.isSome_iff_exists.mp hm
    obtain ⟨t, hload, hdone⟩ := loadMultiple_fills (rn := rn) true none loadPc userReg_injective h15 hcl hall
    rw [hexec h, bankedModeOnly_some _ he, hload]
    exact ⟨hdone.gives_advance true, fun _ ht => next_inj ht ▸ rfl⟩
  case refused =>
    rw [hexec h, bankedModeOnly_none _ hm]

/-! ### The places of a transfer (R104, R111, R385) -/

/-- The size of a TCM is a multiple of the 64 bytes of the longest transfer (R53). -/
theorem longest_dvd_tcmSize (s : State) (m : Tcm) : 64 ∣ s.tcmSize m := by
  have hbytes (code : BitVec 5) : 64 ∣ tcmBytes code := by
    rw [tcmBytes]
    split
    · exact dvd_zero 64
    · exact Nat.pow_dvd_pow 2 (show 6 ≤ 9 + code.toNat by omega)
  cases m <;> exact hbytes _

/-- The place of a word, whatever its port, is its address among the 64 bytes of the longest transfer. -/
theorem firstPlace_word_mod (s : State) (a : Word) : s.firstPlace 4 a % 64 = a.toNat / 4 * 4 % 64 := by
  have htcm (m : Tcm) : s.tcmOffset m (forced 4 a) % 64 = a.toNat / 4 * 4 % 64 := by
    rw [State.tcmOffset, Nat.mod_mod_of_dvd _ (longest_dvd_tcmSize s m), Nat.mod_mod_of_dvd _ (by decide), forced]
  rw [State.firstPlace]
  split
  next m _ =>
    have hoff := htcm m
    rw [lane_word _ (by omega)]
    omega
  next =>
    rw [lane_word _ (by rw [forced]; omega), forced]
    omega

/-- The words of a transfer share no place with its first: there are at most sixteen (R111, R385). -/
theorem word_shares_no_place {s : State} {a : Word} {j : Nat} (hj : j ≠ 0) (hlt : j < 16) {q : Place} (hq : q ∈ s.places 4 a) :
    q ∉ s.places 4 (a + BitVec.ofNat 32 (4 * j)) := by
  intro hq'
  obtain ⟨-, hlo, hhi⟩ := mem_places.mp hq
  obtain ⟨-, hlo', hhi'⟩ := mem_places.mp hq'
  have hmod := firstPlace_word_mod s a
  have hmod' := firstPlace_word_mod s (a + BitVec.ofNat 32 (4 * j))
  rw [BitVec.toNat_add, BitVec.toNat_ofNat] at hmod'
  omega

/-! ### The words that a store multiple stores (R385, R391, R392) -/

theorem storesOf_cons (v : Word) (vs : List Word) (a : Word) : storesOf (v :: vs) a = ⟨a, 4, v⟩ :: storesOf vs (a + 4) := by
  simp only [storesOf, List.zipIdx_cons', List.map_cons, List.map_map, word_zero, Function.comp_def, Prod.map_fst, Prod.map_snd,
    id, word_succ]

/-- A store of a transfer is a word of it. -/
theorem mem_storesOf {vs : List Word} {a : Word} {w : Store} (h : w ∈ storesOf vs a) :
    ∃ j < vs.length, w.addr = a + BitVec.ofNat 32 (4 * j) ∧ w.size = 4 := by
  obtain ⟨x, hx, rfl⟩ := List.mem_map.mp h
  exact ⟨x.2, by simpa using List.snd_lt_of_mem_zipIdx hx, rfl, rfl⟩

/-- Words that all complete, no other agent acting between them, are stored at ascending addresses (R385, R141). -/
theorem storeWords_completes {priv : Bool} (vs : List Word) : ∀ (opened : Bool) (a : Word) (s : State), s.inside = [] → s.Clean →
    vs.length ≤ 16 → (∀ j < vs.length, s.Answers .write 4 priv (a + BitVec.ofNat 32 (4 * j))) →
    ∃ t, storeWords priv opened vs a s = .ok () t ∧ Writes (storesOf vs a) s t := by
  induction vs with
  | nil => exact fun _ _ s _ hc _ _ => ⟨s, rfl, (Reads.refl s).writes hc⟩
  | cons v vs ih =>
    intro opened a s hin hc hlen ha
    rw [List.length_cons] at hlen ha
    have hfirst : s.Answers .write 4 priv a := word_zero a ▸ ha 0 (by omega)
    obtain ⟨b, t, hstore, hw⟩ := storeData_completes (swap := false) opened v hc hfirst
    obtain ⟨u, hrest, hu⟩ := ih b (a + 4) t (hw.frame.inside.trans hin) hw.clean (by omega) fun j hj =>
      hw.frame.answers (word_succ a j ▸ ha (j + 1) (by omega))
    refine ⟨u, ?_, ?_⟩
    · simp only [storeWords, pause_none _ _ hin, hstore, hrest, Acc.bind]
    · rw [storesOf_cons]
      refine hw.append hu fun x hx y hy q hq => ?_
      obtain rfl := List.mem_singleton.mp hx
      obtain ⟨j, hj, haddr, hsize⟩ := mem_storesOf hy
      rw [haddr, hsize, word_succ]
      exact word_shares_no_place (Nat.succ_ne_zero j) (by omega) hq

/-- A store multiple that completes: the words of the list, then the write-back and the advance; that a free value was drawn shows
in the counter alone (R385, R391). -/
theorem storeMultiple_stores {s : State} {rn : Reg} {list : BitVec 16} {start : Word} (value : Reg → Word) (draw hazard : Bool)
    (wb : Option Word) (hc : s.Clean) (hall : s.AnswersAll .write (listed list).length start) :
    ∃ t, storeMultiple value draw hazard rn list start wb s = .next { (t.backTo rn wb).advance with bankHazard := hazard } ∧
      Writes (storesOf ((listed list).map value) start) s t := by
  obtain ⟨hin, hans⟩ := hall
  let s0 : State := { s with free := if draw then s.free + 1 else s.free }
  have hdraw : Reads s s0 := ⟨rfl, fun _ => rfl, id⟩
  have hlen : ((listed list).map value).length = (listed list).length := List.length_map ..
  obtain ⟨t, hstore, hw⟩ := storeWords_completes ((listed list).map value) false start s0 hin (hdraw.clean hc)
    (hlen ▸ List.length_filter_le _ allRegs) fun j hj => hdraw.frame.answers (hans j (hlen ▸ hj))
  refine ⟨t, ?_, (hdraw.writes hc).append hw nofun⟩
  simp only [storeMultiple, show storeWords s.priv false _ start { s with free := _ } = .ok () t from hstore, Acc.finish]
  rfl

/-- The write-back after the stores of a form with a W bit (R385). -/
theorem Writes.done_backIf {writes : List Store} {s t : State} {rn : Reg} {w : Bool} {b : Word} (h : Writes writes s t)
    (h15 : rn ≠ 15) :
    Done (if w then [(s.phys rn, b)] else []) writes s (t.backTo rn (if w then some b else none)) := by
  cases w with
  | false => exact h.done
  | true => exact h.done.setReg b h15 List.not_mem_nil

/-- The word stored is free only for a base that is written back and is not the lowest of the list (R386, log 37). -/
theorem storedWord_of_kept {s : State} {w : Bool} {rn r : Reg} {list : BitVec 16}
    (h : r ≠ rn ∨ w = false ∨ isLowest list rn = true) :
    s.storedWord w rn list r = if r = 15 then s.storedPc else s.getPhys (s.phys r) := by
  have hkept : (r = rn && w && !isLowest list rn) = false := by
    rcases h with h | h | h <;> simp [h]
  rw [State.storedWord, hkept, if_neg Bool.false_ne_true, State.stored]
  split
  · rfl
  · rw [State.reg, if_neg ‹_›]
    rfl

/-- Settles O37: the words of the transfer are at places of their own, so that each holds what its register stored there. -/
theorem storeMultipleWritesTheList : Obligations.StoreMultipleWritesTheList := by
  unfold Obligations.StoreMultipleWritesTheList
  intro c p u w rn list s hc n start i j
  have hexec (h : j.check = none) :
      exec j s = bankedModeOnly s (storeMultiple s.storedUser false true rn list start none s) := exec_of_check rfl hc h
  refine ⟨fun h hcl hall => ?stm1, fun r => storedWord_of_kept, fun h hm hcl hall => ?stm2, fun h hm => ?refused⟩
  case stm1 =>
    have h15 : rn ≠ 15 := beq_eq_false_iff_ne.mp (firstOf_none h (rn == 15, .pcBase) (by simp))
    obtain ⟨t, hstore, hw⟩ := storeMultiple_stores (rn := rn) (s.storedWord w rn list) (freeBase w rn list) false
      (backIf w u n (s.reg rn)) hcl hall
    rw [show exec i s = _ from (exec_of_check rfl hc h).trans hstore]
    exact (hw.done_backIf h15).gives_advance false
  case stm2 =>
    obtain ⟨e, he⟩ := Option.isSome_iff_exists.mp hm
    obtain ⟨t, hstore, hw⟩ := storeMultiple_stores (rn := rn) s.storedUser false true none hcl hall
    rw [hexec h, bankedModeOnly_some _ he, hstore]
    exact ⟨hw.done.gives_advance true, fun _ ht => next_inj ht ▸ rfl⟩
  case refused =>
    rw [hexec h, bankedModeOnly_none _ hm]

end Sys2Proof.Machine

/-! PROOF. The Thumb data-processing instructions on the low registers (R421 to R427, R432 to R434, R436, R439, R440, R442 to R456),
each over the ARM operation with the same effect (R470); the statements O45 and O46. -/

namespace Sys2Proof.Machine

/-! ### The operation behind a Thumb instruction (R470) -/

/-- An immediate that is not scaled (R203). -/
theorem scaled_zero {n : Nat} (imm : BitVec n) : scaled 0 imm = imm.setWidth 32 := BitVec.shiftLeft_zero ..

/-- A Thumb instruction whose meaning is an ARM operation with S set gives that operation's result and flags. -/
theorem computes_of_dataProcess {i : Instr} {op : DpOp} {rd : LReg} {n : Word} {x : Shifted} {s : State}
    (hexec : exec i s = dataProcess op true rd.reg n x s) :
    Computes i s (op.status true n x s.cpsr) [(s.phys rd.reg, op.result n x.value s.cpsr.c)] := by
  rw [Computes, hexec]
  exact dataProcess_gives op true n x s (low_ne_pc rd)

/-- A Thumb instruction whose meaning is an ARM compare gives that compare's flags. -/
theorem computes_of_dataCompare {i : Instr} {op : DpOp} {n : Word} {x : Shifted} {s : State}
    (hexec : exec i s = dataCompare op n x s) : Computes i s (op.status true n x s.cpsr) [] := by
  rw [Computes, hexec]
  exact dataCompare_gives op n x s

/-! ### Shifts, moves and logical operations -/

/-- The shift amount of a register is its bottom byte (R178). -/
theorem shiftAmount_eq (v : Word) : shiftAmount v = (v.setWidth 8).toNat := by
  rw [shiftAmount, BitVec.setWidth_eq_extractLsb' (by decide)]

/-- Settles O45: the shifts are moves of a shifted register; the flags of a move, of a logical operation and of TST are those of
the logical class. -/
theorem thumbLogicalGivesResultAndFlags : Obligations.ThumbLogicalGivesResultAndFlags := by
  unfold Obligations.ThumbLogicalGivesResultAndFlags
  intro n imm rm rd s m d gives shifts amount
  have moves {i : Instr} {x : Shifted} (h : exec i s = dataProcess .mov true rd.reg 0 x s) : shifts i x :=
    computes_of_dataProcess h
  have shiftedReg (sh : Shift) : s.shiftedReg rm.reg sh rd.reg = shiftByReg sh amount d s.cpsr.c := by
    rw [State.shiftedReg, shiftAmount_eq]
  refine ⟨moves rfl, moves rfl, moves rfl, shiftedReg .lsl ▸ moves rfl, shiftedReg .lsr ▸ moves rfl, shiftedReg .asr ▸ moves rfl,
    shiftedReg .ror ▸ moves rfl, scaled_zero imm ▸ moves (x := s.plain (scaled 0 imm)) rfl, ?and, ?eor, ?orr, ?bic, ?mvn, ?tst⟩
  case and => exact computes_of_dataProcess (op := .and) (x := s.plain m) rfl
  case eor => exact computes_of_dataProcess (op := .eor) (x := s.plain m) rfl
  case orr => exact computes_of_dataProcess (op := .orr) (x := s.plain m) rfl
  case bic => exact computes_of_dataProcess (op := .bic) (x := s.plain m) rfl
  case mvn => exact computes_of_dataProcess (op := .mvn) (n := 0) (x := s.plain m) rfl
  case tst => exact computes_of_dataCompare (op := .tst) (x := s.plain m) rfl

/-! ### Additions, subtractions, compares and MUL -/

theorem thumbMulCheck_eq_none {rm rd : LReg} : thumbMulCheck rm rd = none ↔ rd ≠ rm := by
  simp [thumbMulCheck, firstOf_eq_none]

/-- MUL whose registers differ gives the low word of the product, N and Z (R454). -/
theorem tMul_computes {rm rd : LReg} (s : State) (hne : rd ≠ rm) : Computes (.tMul rm rd) s
    (flagsLogical true s.cpsr (s.reg rm.reg * s.reg rd.reg) s.cpsr.c)
    [(s.phys rd.reg, s.reg rm.reg * s.reg rd.reg)] := by
  have hexec : exec (.tMul rm rd) s = guarded (thumbMulCheck rm rd)
    (multiplyResult true rd.reg (s.reg rm.reg * s.reg rd.reg) s) := rfl
  rw [Computes, hexec, thumbMulCheck_eq_none.mpr hne, guarded_none]
  exact multiplyResult_gives true _ s (low_ne_pc rd)

/-- Settles O46: ADD, SUB and NEG have neither carry nor borrow in; SBC borrows where C is clear. -/
theorem thumbArithmeticGivesResultAndFlags : Obligations.ThumbArithmeticGivesResultAndFlags := by
  unfold Obligations.ThumbArithmeticGivesResultAndFlags
  intro i3 imm rm rn rd s m n d adds subs
  have hcarry (x y : Word) : x + y + (if false then 1 else 0) = x + y := BitVec.add_zero _
  have hborrow (x y : Word) : x - y - (if false then 1 else 0) = x - y := BitVec.sub_zero _
  have add {i : Instr} {x y : Word} (h : exec i s = dataProcess .add true rd.reg x (s.plain y) s) : adds i x y false := by
    simp only [adds, hcarry]
    exact computes_of_dataProcess h
  have sub {i : Instr} {x y : Word} (h : exec i s = dataProcess .sub true rd.reg x (s.plain y) s) : subs i x y false := by
    simp only [subs, hborrow]
    exact computes_of_dataProcess h
  refine ⟨add rfl, scaled_zero i3 ▸ add rfl, scaled_zero imm ▸ add rfl, ?adc, sub rfl, scaled_zero i3 ▸ sub rfl,
    scaled_zero imm ▸ sub rfl, ?sbc, ?neg, ?cmpImm, ?cmpReg, ?cmn, tMul_computes s⟩
  case adc => exact computes_of_dataProcess (op := .adc) (x := s.plain m) rfl
  case sbc =>
    have hclear : d - m - (if !s.cpsr.c then 1 else 0) = d - m - (if s.cpsr.c then 0 else 1) := by cases s.cpsr.c <;> rfl
    simp only [subs, hclear]
    exact computes_of_dataProcess (op := .sbc) (x := s.plain m) rfl
  case neg =>
    simp only [subs, hborrow]
    exact computes_of_dataProcess (op := .rsb) (n := m) (x := s.plain 0) rfl
  case cmpImm =>
    rw [← scaled_zero imm]
    exact computes_of_dataCompare (op := .cmp) (x := s.plain (scaled 0 imm)) rfl
  case cmpReg => exact computes_of_dataCompare (op := .cmp) (x := s.plain m) rfl
  case cmn => exact computes_of_dataCompare (op := .cmn) (x := s.plain m) rfl

end Sys2Proof.Machine

/-! PROOF. The Thumb transfers of several words (R500 to R503, R536): the lists of PUSH, POP, STMIA and LDMIA; the
statement O49. -/

namespace Sys2Proof.Machine

/-! ### Register lists of eight low registers (R500 to R503) -/

/-- The bits of a list above r7. -/
theorem append_high_bit (hi l : BitVec 8) {k : Nat} (hk : 8 ≤ k) : (hi ++ l : BitVec 16).getLsbD k = hi.getLsbD (k - 8) :=
  BitVec.getLsbD_append.trans (if_neg (by omega))

/-- The bits of a list for r0 to r7. -/
theorem append_low_bit (hi l : BitVec 8) (r : LReg) : (hi ++ l : BitVec 16).getLsbD r.toNat = l.getLsbD r.toNat :=
  BitVec.getLsbD_append.trans (if_pos (Nat.lt_of_lt_of_le r.isLt (by decide)))

/-- A low register is in a list by its bit (R184). -/
theorem low_mem_listed {hi l : BitVec 8} {r : LReg} : r.reg ∈ listed (hi ++ l) ↔ l.getLsbD r.toNat = true := by
  have hr : r.reg.toNat = r.toNat := BitVec.toNat_setWidth_of_le (by decide)
  rw [mem_listed, hr, append_low_bit]

/-- A list without r15 stores what its registers hold. -/
theorem map_reg_of_spares_pc (s : State) {list : BitVec 16} (h15 : list.getLsbD 15 = false) :
    (listed list).map s.reg = (listed list).map fun q => s.getPhys (s.phys q) := by
  refine List.map_congr_left fun q hq => ?_
  have hq15 : q ≠ 15 := fun e => by
    subst e
    exact Bool.false_ne_true (h15.symm.trans (mem_listed.mp hq))
  exact if_neg hq15

/-! ### The operands that the checks allow (R500 to R503, R536) -/

theorem pushCheck_eq_none {r : Bool} {l : BitVec 8} : pushCheck r l = none ↔ r = true ∨ l ≠ 0 := by
  cases r <;> simp [pushCheck, firstOf_eq_none]

theorem listCheck_eq_none {l : BitVec 8} : listCheck l = none ↔ l ≠ 0 := by
  simp [listCheck, firstOf_eq_none]

theorem stmiaCheck_eq (rn : LReg) (l : BitVec 8) : stmiaCheck rn l = firstOf [(l == 0, .emptyList),
    (l.getLsbD rn.toNat && !isLowest (0#8 ++ l) rn.reg, .baseInList)] := by
  rw [stmiaCheck, append_low_bit]

theorem stmiaCheck_eq_none {rn : LReg} {l : BitVec 8} : stmiaCheck rn l = none ↔
    l ≠ 0 ∧ (l.getLsbD rn.toNat = false ∨ isLowest (0#8 ++ l) rn.reg = true) := by
  rw [or_iff_not_imp_left]
  simp [stmiaCheck_eq, firstOf_eq_none]

/-- A base in the list that is not the lowest of it is refused under its own name (R536(c)). -/
theorem stmiaCheck_base {rn : LReg} {l : BitVec 8} (hin : l.getLsbD rn.toNat = true) (hlow : isLowest (0#8 ++ l) rn.reg = false) :
    stmiaCheck rn l = some .baseInList := by
  have hne : l ≠ 0 := by
    rintro rfl
    simp at hin
  rw [stmiaCheck_eq, beq_false_of_ne hne, hin, hlow]
  rfl

/-- The list of PUSH is empty where it names neither r14 nor a low register (R536(b)). -/
theorem push_list_ne_zero {r : Bool} {l : BitVec 8} (h : ((if r then 0x40#8 else 0) ++ l : BitVec 16) ≠ 0) : r = true ∨ l ≠ 0 := by
  by_contra hno
  obtain ⟨hr, hl⟩ := not_or.mp hno
  rw [eq_false_of_ne_true hr, not_ne_iff.mp hl] at h
  exact h rfl

/-! ### The transfers -/

section
variable {s : State} {rn : Reg} {list : BitVec 16} {start b : Word}

/-- A store multiple of registers, r15 not among them, that completes and writes the base back (R500, R503). -/
theorem storeMultiple_gives (h15 : list.getLsbD 15 = false) (hrn : rn ≠ 15) (hc : s.Clean)
    (hall : s.AnswersAll .write (listed list).length start) :
    Gives (storeMultiple s.reg false false rn list start (some b) s) s s.nextAddr s.cpsr [(s.phys rn, b)]
      (storesOf ((listed list).map fun q => s.getPhys (s.phys q)) start) := by
  obtain ⟨t, hstore, hw⟩ := storeMultiple_stores (rn := rn) s.reg false false (some b) hc hall
  rw [hstore, ← map_reg_of_spares_pc s h15]
  exact (hw.done_backIf (w := true) hrn).gives_advance false

/-- A load multiple, r15 not in its list, that completes and, if `w`, writes back a base outside the list (R501, R502). -/
theorem loadMultiple_gives {w : Bool} (h15 : list.getLsbD 15 = false) (hw : w = true → rn ≠ 15 ∧ rn ∉ listed list) (hc : s.Clean)
    (hall : s.AnswersAll .read (listed list).length start) :
    Gives (loadMultiple s.phys false rn list start (if w then some b else none) loadPc s) s s.nextAddr s.cpsr
      ((if w then [(s.phys rn, b)] else []) ++ s.loaded s.phys list start) [] := by
  obtain ⟨t, hload, hdone⟩ := loadMultiple_fills (rn := rn) false (if w then some b else none) loadPc
    (physReg_injective s.cpsr.m) h15 hc hall
  rw [show loadMultiple s.phys false rn list start _ loadPc s = _ from hload]
  exact (hdone.loaded_back hw).gives_advance false

end

/-- Settles O49: the four are load and store multiples of a list without r15, once their checks allow the operands. -/
theorem thumbMultipleTransfers : Obligations.ThumbMultipleTransfers := by
  unfold Obligations.ThumbMultipleTransfers
  intro r l rn s hc sp b n push low bytes
  have hpush : push.getLsbD 15 = false := by
    rw [append_high_bit _ _ (by decide)]
    cases r <;> rfl
  have hlow : low.getLsbD 15 = false := append_high_bit 0 l (by decide)
  have hsp : (13 : Reg) ∉ listed low := fun h =>
    Bool.false_ne_true ((append_high_bit 0 l (by decide)).symm.trans (mem_listed.mp h))
  refine ⟨fun hne hall => ?push, fun hne hall => ?pop, fun hne hbase hall => ?stmia, fun hin hbase => ?refused,
    fun hne hall => ?ldmia⟩
  case push =>
    have hexec : exec (.tPush r l) s =
      guarded (pushCheck r l) (storeMultiple s.reg false false 13 push (sp - bytes push) (some (sp - bytes push)) s) := rfl
    rw [hexec, pushCheck_eq_none.mpr (push_list_ne_zero hne), guarded_none]
    exact storeMultiple_gives hpush (by decide) hc hall
  case pop =>
    have hexec : exec (.tPop false l) s =
      guarded (pushCheck false l) (loadMultiple s.phys false 13 low sp (some (sp + bytes low)) loadPc s) := rfl
    rw [hexec, pushCheck_eq_none.mpr (.inr hne), guarded_none]
    exact loadMultiple_gives (w := true) hlow (fun _ => ⟨by decide, hsp⟩) hc hall
  case stmia =>
    have hexec : exec (.tStmia rn l) s =
      guarded (stmiaCheck rn l) (storeMultiple s.reg false false rn.reg low b (some (b + bytes low)) s) := rfl
    rw [hexec, stmiaCheck_eq_none.mpr ⟨hne, hbase⟩, guarded_none]
    exact storeMultiple_gives hlow (low_ne_pc rn) hc hall
  case refused =>
    show guarded (stmiaCheck rn l) _ = _
    rw [stmiaCheck_base hin hbase, guarded_some]
  case ldmia =>
    have hexec : exec (.tLdmia rn l) s = guarded (listCheck l) (loadMultiple s.phys false rn.reg low b
      (if !l.getLsbD rn.toNat then some (b + bytes low) else none) loadPc s) := rfl
    have hback : (if l.getLsbD rn.toNat then [] else [(s.phys rn.reg, b + bytes low)]) =
        if !l.getLsbD rn.toNat then [(s.phys rn.reg, b + bytes low)] else [] := by cases l.getLsbD rn.toNat <;> rfl
    rw [hexec, listCheck_eq_none.mpr hne, guarded_none, hback]
    refine loadMultiple_gives hlow (fun hout => ⟨low_ne_pc rn, fun hmem => ?_⟩) hc hall
    rw [low_mem_listed.mp hmem] at hout
    exact Bool.false_ne_true hout

end Sys2Proof.Machine

/-! PROOF. The Thumb branches (R510, R511, R521 to R523): the statement O50. -/

namespace Sys2Proof.Machine

/-- A sign-extended field shifted left is its signed value times a power of two (R203). -/
theorem signExtend_shiftLeft {n : Nat} (off : BitVec n) (k : Nat) :
    (off.signExtend 32) <<< k = BitVec.ofInt 32 (2 ^ k * off.toInt) := by
  have hpow : BitVec.ofInt 32 (2 ^ k) = BitVec.twoPow 32 k := by
    have hcast : (2 ^ k : Int) = (2 ^ k : Nat) := (Nat.cast_pow 2 k).symm
    rw [hcast, BitVec.ofInt_natCast]
    exact BitVec.eq_of_toNat_eq (BitVec.toNat_twoPow ..).symm
  rw [BitVec.shiftLeft_eq_mul_twoPow, BitVec.ofInt_mul, BitVec.mul_comm, hpow]
  rfl

/-- The target of a Thumb branch: twice the signed field from two instructions ahead (R203). -/
theorem thumbTarget_eq {n : Nat} (s : State) (off : BitVec n) :
    s.thumbTarget off = s.pc + 4 + BitVec.ofInt 32 (2 * off.toInt) := by
  rw [State.thumbTarget, thumbOffset, signExtend_shiftLeft]
  rfl

/-- Settles O50: the targets by `thumbTarget_eq`; each half of a call writes r14, and the second one branches. -/
theorem thumbBranchesReachTheirTarget : Obligations.ThumbBranchesReachTheirTarget := by
  unfold Obligations.ThumbBranchesReachTheirTarget
  intro c o8 o10 o11 s from_ link
  have hcond : exec (.tBCond c o8) s = conditional c s (.next (s.branchTo (s.thumbTarget o8))) := rfl
  have h11 : scaled 1 o11 = o11.setWidth 32 * 2 := scaled_eq 1 o11
  have h10 : scaled 2 o10 = o10.setWidth 32 * 4 := scaled_eq 2 o10
  refine ⟨fun hc => ?taken, fun hc => ?passed, ?b, ?blPrefix, ?blSuffix, ?blxSuffix⟩
  case taken =>
    rw [hcond, conditional_pass hc, thumbTarget_eq]
    exact (Brings.refl s).gives_branch s.cpsr _
  case passed =>
    rw [Computes, hcond, conditional_fail hc]
    exact gives_cpsr_advance s rfl
  case b =>
    have hexec : exec (.tB o11) s = .next (s.branchTo (s.thumbTarget o11)) := rfl
    rw [hexec, thumbTarget_eq]
    exact (Brings.refl s).gives_branch s.cpsr _
  case blPrefix =>
    have hexec : exec (.tBlPrefix o11) s = .next (s.setReg 14 (s.pc + 4 + (o11.signExtend 32) <<< 12)).advance := rfl
    rw [Computes, hexec, signExtend_shiftLeft]
    exact gives_setReg_advance s _ rfl rfl (by decide)
  case blSuffix =>
    rw [← h11]
    exact gives_linkBranch s s.cpsr link _
  case blxSuffix =>
    rw [← h10]
    exact gives_linkBranch s { s.cpsr with t := false } link _

end Sys2Proof.Machine

/-! PROOF. The instruction boundary (R546, R547, R561, R566, R575): the interrupt that is taken there, and the instruction that runs
with nothing before it; the statements O5 and O7. -/

namespace Sys2Proof.Machine

/-- Settles O5: the step runs the fetched code, which decodes and does not meet the hazard. -/
theorem stepRunsTheDecodedInstruction : Obligations.StepRunsTheDecodedInstruction := by
  unfold Obligations.StepRunsTheDecodedInstruction
  intro s s1 f i hs hf he hb hr hd hbank
  rw [step_runCode hs hf he hb hr, runCode_ok hd, hbank, if_neg Bool.false_ne_true]

/-- A boundary with no watchpoint latched takes the pending interrupt (R546, R547). -/
theorem boundary_of_pending {run : Instr → State → Result} {s : State} {e : Exc} (hp : s.pastTop = false)
    (hl : s.dbg.wptLatch = false) (he : s.pendingInterrupt = some e) : boundary run s = .next (takeInterrupt e s) := by
  simp only [boundary, interruptOrRun, hp, hl, he, Bool.false_and, Bool.false_eq_true, if_false]

/-- With FIFOFULL LOW a running core, in Standby or not, takes the pending interrupt (R71, R566). -/
theorem step_enters_pending {s : State} {e : Exc} (h : s.Running) (hf : s.pins.fifofull = false) (hp : s.pastTop = false)
    (hl : s.dbg.wptLatch = false) (hreq : (s.pins.fiq || s.pins.irq) = true) (he : s.pendingInterrupt = some e) :
    Enters (step s) { s with standby := false, etmRun := none, dbg := { s.dbg with bkptMatch := false } } e := by
  have hstep : step s = boundary exec { s with etmRun := none, standby := false } := by
    rw [step_of_low h hf, hreq, Bool.not_true, Bool.and_false, if_neg Bool.false_ne_true]
  rw [hstep, boundary_of_pending (s := { s with etmRun := none, standby := false }) hp hl he, takeInterrupt_eq_takeException]
  simp only [hf, Bool.false_eq_true, if_false]
  exact enters_takeException _ e

/-- With FIFOFULL LOW an FIQ is taken where its pin is HIGH and the F bit lets it through (R547, R612). -/
theorem takesFiq_of_low {s : State} (hf : s.pins.fifofull = false) : s.takesFiq = (s.pins.fiq && !s.cpsr.f) := by
  rw [State.takesFiq, State.fiqOpen, hf, Bool.false_and, Bool.not_false, Bool.and_true]

/-- With FIFOFULL LOW an IRQ is taken where its pin is HIGH and the I bit lets it through (R546, R612). -/
theorem takesIrq_of_low {s : State} (hf : s.pins.fifofull = false) : s.takesIrq = (s.pins.irq && !s.cpsr.i) := by
  rw [State.takesIrq, State.irqOpen, hf, Bool.false_and, Bool.not_false, Bool.and_true]

/-- Settles O7: the pending interrupt is the FIQ that is taken, else the IRQ. -/
theorem interruptsAreTakenByPriority : Obligations.InterruptsAreTakenByPriority := by
  unfold Obligations.InterruptsAreTakenByPriority
  intro s hforb hag hun hhalt hreq hfifo htop hlatch s0
  have hrun : s.Running := ⟨hforb, hag, hun, hhalt, hreq⟩
  refine ⟨fun hpin hbit => ?fiq, fun hpin hbit hfiq => ?irq⟩
  case fiq =>
    have htake : s.takesFiq = true := by rw [takesFiq_of_low hfifo, hpin, hbit]; rfl
    exact step_enters_pending hrun hfifo htop hlatch (by rw [hpin, Bool.true_or]) (pendingInterrupt_fiq htake)
  case irq =>
    have hnone : s.takesFiq = false := by
      rw [takesFiq_of_low hfifo]
      rcases hfiq with h | h <;> simp [h]
    have htake : s.takesIrq = true := by rw [takesIrq_of_low hfifo, hpin, hbit]; rfl
    exact step_enters_pending hrun hfifo htop hlatch (by rw [hpin, Bool.or_true]) (pendingInterrupt_irq hnone htake)

end Sys2Proof.Machine
